-- ==== Sys2Proof/Word.lean ====
section
/-! DEFINITION. The word types of GAUTH-CORE: bytes, 32-bit register words, 64-bit quantities (00_scope.md R8, R11). -/

namespace Sys2Proof

/-- One byte of a key, digest or message. -/
abbrev Byte := BitVec 8

/-- One 32-bit register or bus word (R8: bus data width 32 bits). -/
abbrev Word := BitVec 32

/-- A 64-bit unsigned quantity: TIME and COUNTER (R7, R8). -/
abbrev DWord := BitVec 64

end Sys2Proof
end

