-- ==== Sys2Proof/Syntax.lean ====
section
/-! DEFINITION. The two things that are written down for GAUTH-CORE: command words (30_encoding.md R91, R92, one constructor per row of
spec/opcode_table.json) and host programs (R99, R100), with the register names both the bus and the host syntax use
(10_state.md R20). -/

namespace Sys2Proof

/-- The commands. No command carries an operand in its word (R93), so no constructor has an argument. -/
inductive Instr where
  | cdiv      -- COUNTER <- TIME / STEP (R110)
  | hsha1     -- DIGEST1 <- HMAC-SHA1(key, BE64(COUNTER)) (R128)
  | hmd5      -- DIGEST2 <- HMAC-MD5(DIGEST1, BE64(COUNTER)) (R158)
  | trunc     -- OFFSET, HEADER, RESULT from DIGEST2 (R170)
  | fmt       -- CODE <- six digits of RESULT (R173)
  | derive    -- HSHA1, HMD5, TRUNC, FMT as one command (R190)
  | totp      -- CDIV, then DERIVE, as one command (R191)
  | zeroize   -- clear the key and every derived value (R192)
deriving DecidableEq, Repr

/-- Why a command word is illegal (R94). Both are reported as ILLEGAL_CMD. -/
inductive IllegalWord where
  /-- RSV, bits [31:4], is not 0. -/
  | rsvNonZero
  /-- RSV is 0 and OP is 0x0 or 0x9 to 0xF. -/
  | opReserved
deriving DecidableEq, Repr

/-- The registers of the window, by name (R20); `reserved` stands for every reserved offset (R42). -/
inductive Reg where
  | ident | ctrl | status | cmd | step | keylen | timeLo | timeHi | counterLo | counterHi
  | offset | header | result | codeLo | codeHi
  | digest1 (i : Fin 5)
  | digest2 (i : Fin 4)
  | key (i : Fin 64)
  | reserved
deriving DecidableEq, Repr

/-- The two 64-bit register pairs LD64 can load (R100). -/
inductive Wide where
  | time | counter
deriving DecidableEq, Repr

/-- One step of an expanded host program (R102): a bus transaction, or the loop of POLL, which repeats its read of STATUS.
A transaction carries what the ports carry (20_memory.md R60): the 12-bit offset, and for a write its strobes and data. -/
inductive HostOp where
  /-- `RD [off] -> v`: a read whose data goes to host variable `v` (R99). -/
  | rd (off : BitVec 12) (v : Fin 16)
  /-- A write with its byte strobes; `WR` always drives 0b1111 (R99, R60). -/
  | wr (off : BitVec 12) (strb : BitVec 4) (data : Word)
  /-- `L: RD STATUS -> v15; if v15[0] = 1 goto L` (R100). -/
  | poll
deriving DecidableEq, Repr

/-- The 32-bit immediate of a `WR` or `ISSUE.W` statement: a number, or a command mnemonic, which denotes its word (R99). -/
inductive Imm where
  | num (n : Nat)
  | word (i : Instr)
deriving DecidableEq, Repr

/-- One line of a host program in its source form (R99, R100). Numbers are as written, so a statement can be ill-formed
(`Stmt.wf`). The 32-bit immediate of `WR` and `ISSUE.W` may be a mnemonic; that LD64's 64-bit one is a number only is the model's choice
(R99 speaks of 32-bit immediates; log entry 9, DESIGN CHOICE). Blank lines and `label:` lines do nothing: POLL is the syntax's only branch. -/
inductive Stmt where
  | blank
  | label
  | wrReg (r : Reg) (v : Imm)
  | rdReg (r : Reg) (v : Nat)
  | wrOff (off : Nat) (v : Imm)
  | rdOff (off : Nat) (v : Nat)
  | issue (i : Instr)
  | issueW (v : Imm)
  | poll
  | ld64 (r : Wide) (v : Nat)
  | ldkey (bytes : List Nat)
  | clrst
deriving DecidableEq, Repr

end Sys2Proof
end

