-- ==== Sys2Proof/WellFormed.lean ====
section
/-! DEFINITION. What makes a term of Syntax well formed: the bounds the host syntax puts on its numbers (30_encoding.md R99, R100). -/

namespace Sys2Proof

/-- Every command is well formed: a command word has no operand that could be out of range (R91, R93). -/
def Instr.wf (_ : Instr) : Bool := true

/-- A named register of the host syntax: `reserved` offsets have no name (R99). -/
def Reg.named (r : Reg) : Bool := decide (r ≠ .reserved)

/-- "their value must fit 32 bits" (R99); a mnemonic always does. -/
def Imm.wf : Imm → Bool
  | .num n => decide (n < 2 ^ 32)
  | .word i => i.wf

/-- A numeric offset lies in the window, legal or not (R99, R71). -/
def offsetWf (off : Nat) : Bool := decide (off < 4096)

/-- The host variables are v0 to v15 (R99). -/
def varWf (v : Nat) : Bool := decide (v < 16)

/-- A statement of a host program is well formed (R99, R100). -/
def Stmt.wf : Stmt → Bool
  | .blank | .label | .poll | .clrst => true
  | .wrReg r v => r.named && v.wf
  | .rdReg r v => r.named && varWf v
  | .wrOff off v => offsetWf off && v.wf
  | .rdOff off v => offsetWf off && varWf v
  | .issue i => i.wf
  | .issueW v => v.wf
  | .ld64 _ v => decide (v < 2 ^ 64)
  | .ldkey bytes => decide (bytes.length ≤ 256) && bytes.all (fun b => decide (b < 256))

end Sys2Proof
end

