-- ==== Sys2Proof/Decode.lean ====
section
/-! DEFINITION. Decoding and encoding: command words (30_encoding.md R91 to R95, R101) and register offsets (10_state.md R20). -/

namespace Sys2Proof

/-- OP, bits [3:0] of a command word (R91). -/
def opField (w : Word) : BitVec 4 := w.extractLsb' 0 4

/-- RSV, bits [31:4] of a command word (R91). -/
def rsvField (w : Word) : BitVec 28 := w.extractLsb' 4 28

/-- The opcode map (R92). OP 0x0 and 0x9 to 0xF are reserved. -/
def decodeOp (op : BitVec 4) : Option Instr :=
  match op.toNat with
  | 0x1 => some .cdiv
  | 0x2 => some .hsha1
  | 0x3 => some .hmd5
  | 0x4 => some .trunc
  | 0x5 => some .fmt
  | 0x6 => some .derive
  | 0x7 => some .totp
  | 0x8 => some .zeroize
  | _ => none

/-- The decoder, total on all 2^32 words (R92, R94, R101). -/
def decode (w : Word) : Except IllegalWord Instr :=
  if rsvField w ≠ 0 then .error .rsvNonZero
  else match decodeOp (opField w) with
    | some i => .ok i
    | none => .error .opReserved

/-- The OP value of each command (R92). -/
def opcode : Instr → BitVec 4
  | .cdiv => 0x1
  | .hsha1 => 0x2
  | .hmd5 => 0x3
  | .trunc => 0x4
  | .fmt => 0x5
  | .derive => 0x6
  | .totp => 0x7
  | .zeroize => 0x8

/-- The word of each command: `zext_32(OP)` (R92). -/
def encode (i : Instr) : Word := (opcode i).setWidth 32

/-- The instruction the decoder reads from a table row's bits, bit 0 the least significant (opcode_table.json). A command word is one
32-bit bus word whose byte order is not observable (R69, R95), so the bits above `nbits` are 0 and there is no longer form. -/
def decodeTableWord (nbits w : Nat) : Option Instr :=
  if nbits ≤ 32 then (decode (BitVec.ofNat 32 (w % 2 ^ nbits))).toOption else none

/-- The mnemonic of a command (R92). -/
def Instr.mnemonic : Instr → String
  | .cdiv => "CDIV"
  | .hsha1 => "HSHA1"
  | .hmd5 => "HMD5"
  | .trunc => "TRUNC"
  | .fmt => "FMT"
  | .derive => "DERIVE"
  | .totp => "TOTP"
  | .zeroize => "ZEROIZE"

/-- One hexadecimal digit, in capitals as the spec's listings print them (log entry 9). -/
def hexDigit (n : Nat) : Char :=
  if n < 10 then Char.ofNat (0x30 + n) else Char.ofNat (0x41 + (n - 10))

/-- `n` in exactly `digits` hexadecimal digits, most significant first. -/
def hexDigits : (digits n : Nat) → List Char
  | 0, _ => []
  | d + 1, n => hexDigit (n / 16 ^ d % 16) :: hexDigits d n

/-- Disassembly of a command word, total on all words (R101). -/
def disassemble (w : Word) : String :=
  match decode w with
  | .ok i => i.mnemonic
  | .error _ => ".cmd 0x" ++ String.ofList (hexDigits 8 w.toNat)

/-- The register at a word-aligned offset of the window (R20, R42). Offsets that are not a multiple of 4 reach no register (R61). -/
def Reg.ofOffset (a : BitVec 12) : Reg :=
  match a.toNat with
  | 0x000 => .ident
  | 0x004 => .ctrl
  | 0x008 => .status
  | 0x00C => .cmd
  | 0x010 => .step
  | 0x014 => .keylen
  | 0x018 => .timeLo
  | 0x01C => .timeHi
  | 0x020 => .counterLo
  | 0x024 => .counterHi
  | 0x028 => .offset
  | 0x02C => .header
  | 0x030 => .result
  | 0x034 => .codeLo
  | 0x038 => .codeHi
  | n =>
    if h : 0x040 ≤ n ∧ n < 0x054 then .digest1 ⟨(n - 0x040) / 4, by omega⟩
    else if h : 0x060 ≤ n ∧ n < 0x070 then .digest2 ⟨(n - 0x060) / 4, by omega⟩
    else if h : 0x100 ≤ n ∧ n < 0x200 then .key ⟨(n - 0x100) / 4, by omega⟩
    else .reserved

/-- `off(reg)`, the offset of a named register (R20, R99). The reserved offsets have no name; 0x03C stands for them. -/
def Reg.toOffset : Reg → BitVec 12
  | .ident => 0x000
  | .ctrl => 0x004
  | .status => 0x008
  | .cmd => 0x00C
  | .step => 0x010
  | .keylen => 0x014
  | .timeLo => 0x018
  | .timeHi => 0x01C
  | .counterLo => 0x020
  | .counterHi => 0x024
  | .offset => 0x028
  | .header => 0x02C
  | .result => 0x030
  | .codeLo => 0x034
  | .codeHi => 0x038
  | .digest1 i => BitVec.ofNat 12 (0x040 + 4 * i.val)
  | .digest2 i => BitVec.ofNat 12 (0x060 + 4 * i.val)
  | .key i => BitVec.ofNat 12 (0x100 + 4 * i.val)
  | .reserved => 0x03C

end Sys2Proof
end

