-- ==== Sys2Proof/Config.lean ====
section
/-! DEFINITION. Parameters of GAUTH-CORE: those the spec fixes (00_scope.md R7, R8) and the window base address, which it leaves
open (R9). The other open parameter, LAT, has no constant here: when a completion falls is data of the state
(`Machine.State.sched`, log entry 2). -/

namespace Sys2Proof.Config

/-- KEY_MAX, the size of the key buffer in bytes (R8). -/
def keyMax : Nat := 256

/-- HMAC block size B in bytes, for SHA-1 and MD5 alike (R8, R126). -/
def hmacBlock : Nat := 64

/-- STEP's reset value, the document's default step in seconds (R7, R30, R48). -/
def defaultStep : Word := 30

/-- The constant of the ID register, the ASCII bytes "HOTP" (R8, R21). -/
def idValue : Word := 0x484F5450

/-- The byte of DIGEST2 the offset is taken from (R7, R170). -/
def offsetIndex : Fin 16 := 9

/-- The offset mask (R7, R170, R171; 90_conflicts.md C3 and C9). -/
def offsetMask : Byte := 0x05

/-- The mask that drops bit 31 of the header (R7, R170). -/
def signMask : Word := 0x7FFFFFFF

/-- The modulus of the truncation (R7, R170). -/
def modulus : Word := 1000000

/-- The ASCII code of the digit zero (R174). -/
def asciiZero : Nat := 0x30

/-- The 4 KiB page the platform maps the register window to. Open (R9: BASE; 93_implementation_defined.md U3): a free value, it
has no body. -/
opaque basePage : Nat

/-- BASE, the bus address of offset 0x000. It is a multiple of 4096 by its form (R9). -/
def base : Nat := basePage * 4096

/-- The quotient a zero STEP would give. "STEP >= 1 always holds ... so division by zero cannot happen" (R111): no run reaches it, and the
spec gives it no value, so it is free (log entry 10). -/
opaque quotientByZero : DWord → DWord

end Sys2Proof.Config
end

