-- ==== Sys2Proof/Machine/State.lean ====
section
/-! DEFINITION. The state of GAUTH-CORE and of the two agents around it (10_state.md R20 to R50, 00_scope.md R15), as plain data, and the state
right after reset. -/

namespace Sys2Proof.Machine

/-- No step of this machine faults: "GAUTH-CORE has no traps" and "An error never halts the block" (60_exceptions.md R220). An engine error is
a record in STATUS, a bus error a response on the bus; both are next states. The type has no constructor, which is safe: no run stops. -/
inductive Fault where
deriving DecidableEq, Repr

/-- Why the model has no meaning for an instruction. -/
inductive Refusal where
  /-- Raised only by an arm of `exec` whose command has no meaning in the model yet. Safe: it claims nothing about that command.
  No arm raises it: all eight commands have their meaning. -/
  | notModelled (mnemonic : String)
deriving DecidableEq, Repr

/-- The registers commands read (30_encoding.md R93), as one record: what `snapshot()` records at acceptance (R97). -/
structure Operands where
  time    : DWord
  step    : Word
  keylen  : Word
  key     : Vector Byte 256
  counter : DWord
  digest1 : Vector Byte 20
  digest2 : Vector Byte 16
  result  : BitVec 20
deriving DecidableEq, Repr

/-- The command in flight: its OP and its operand snapshot (10_state.md R43, 30_encoding.md R96). -/
structure Inflight where
  op   : Instr
  snap : Operands
deriving DecidableEq, Repr

/-- The block: every register of the window and the in-flight command (R20, R50). ID is a constant, irq is computed (R47). -/
structure Block where
  ctrlIe   : Bool
  busy     : Bool
  done     : Bool
  err      : Bool
  werr     : Bool
  errcode  : BitVec 4
  cmd      : Word
  step     : Word
  keylen   : Word
  time     : DWord
  counter  : DWord
  offset   : BitVec 3
  header   : Word
  result   : BitVec 20
  codeLo   : Word
  codeHi   : Word
  digest1  : Vector Byte 20
  digest2  : Vector Byte 16
  key      : Vector Byte 256
  inflight : Option Inflight
deriving DecidableEq, Repr

/-- The host, the single bus master (R15): the rest of its program, its variables v0 to v15 (30_encoding.md R99), and what the bus last
answered it (20_memory.md R60, R61): bus_rdata, the data of its last read or 0 after any transaction during reset, the error response of its last transaction, and whether any
transaction of its was a host-side fault (60_exceptions.md R227). -/
structure HostState where
  prog   : List HostOp
  vars   : Vector Word 16
  rdata  : Word
  busErr : Bool
  fault  : Bool
deriving DecidableEq, Repr

/-- Who takes the next atomic step (20_memory.md R73). A list of events is one interleaving. -/
inductive Event where
  /-- The host performs its next bus transaction. -/
  | host
  /-- The engine completes the command in flight; not enabled, and without effect, while BUSY = 0 (30_encoding.md R98). -/
  | engine
  /-- A clk edge with rst_n = 0, which stays low (70_reset_and_hazards.md R260). -/
  | resetLow
  /-- rst_n returns to 1. -/
  | resetHigh
deriving DecidableEq, Repr

/-- The whole state: the block, the host, the level of the rst_n port, and the interleaving still to come. When `sched` is empty the
engine completes whatever is in flight, and the host moves otherwise (weak fairness, R98; log entry 2). -/
structure State where
  blk   : Block
  host  : HostState
  rstN  : Bool
  sched : List Event
deriving DecidableEq, Repr

/-- The block's reset values (R48). -/
def Block.reset : Block where
  ctrlIe   := false
  busy     := false
  done     := false
  err      := false
  werr     := false
  errcode  := 0
  cmd      := 0
  step     := Config.defaultStep
  keylen   := 0
  time     := 0
  counter  := 0
  offset   := 0
  header   := 0
  result   := 0
  codeLo   := 0
  codeHi   := 0
  digest1  := Vector.replicate 20 0
  digest2  := Vector.replicate 16 0
  key      := Vector.replicate 256 0
  inflight := none

/-- The host before it has done anything. The spec gives its variables no first value (log entry 4, DESIGN CHOICE 0). -/
def HostState.start : HostState where
  prog   := []
  vars   := Vector.replicate 16 0
  rdata  := 0
  busErr := false
  fault  := false

/-- The machine right after reset (R48, R261): the block idle at its reset values, rst_n high again, no program given to the host
and no interleaving chosen. -/
def State.reset : State where
  blk   := Block.reset
  host  := HostState.start
  rstN  := true
  sched := []

end Sys2Proof.Machine
end

