-- ==== Sys2Proof/Machine/Flags.lean ====
section
/-! DEFINITION. The flags: STATUS.BUSY, DONE, ERR, WERR, ERRCODE and the irq output, and everything that writes them (10_state.md R23 to R28,
R46, R47). No computation writes a flag as a side effect, and there is no carry, zero or overflow flag (R46). -/

namespace Sys2Proof.Machine

/-- ERRCODE values (60_exceptions.md R223). -/
def errNone : BitVec 4 := 0x0
def errIllegalCmd : BitVec 4 := 0x1
def errKeylenRange : BitVec 4 := 0x2

/-- One flag as a 32-bit word. -/
def flagWord (f : Bool) : Word := (BitVec.ofBool f).setWidth 32

/-- The value of STATUS: `ERRCODE << 8 | WERR << 3 | ERR << 2 | DONE << 1 | BUSY` (20_memory.md R62). -/
def Block.statusWord (b : Block) : Word :=
  b.errcode.setWidth 32 <<< 8 ||| flagWord b.werr <<< 3 ||| flagWord b.err <<< 2 ||| flagWord b.done <<< 1 ||| flagWord b.busy

/-- A host write of STATUS: a 1 in bit 1, 2 or 3 clears DONE, ERR or WERR (R66, R28). -/
def Block.w1c (b : Block) (v : Word) : Block :=
  { b with done := b.done && !v[1], err := b.err && !v[2], werr := b.werr && !v[3] }

/-- Every acceptance attempt clears DONE, ERR and ERRCODE (30_encoding.md R96). -/
def Block.clearForAccept (b : Block) : Block :=
  { b with done := false, err := false, errcode := errNone }

/-- A dropped write sets WERR and does nothing else (20_memory.md R65, R226). -/
def Block.dropWrite (b : Block) : Block := { b with werr := true }

/-- The flags of a completion: BUSY <- 0, DONE <- 1, with INFLIGHT <- none (R98). -/
def Block.finish (b : Block) : Block :=
  { b with inflight := none, busy := false, done := true }

/-- `irq = CTRL.IE & (STATUS.DONE | STATUS.ERR)`, not stored (R47, 60_exceptions.md R229). -/
def Block.irq (b : Block) : Bool := b.ctrlIe && (b.done || b.err)

end Sys2Proof.Machine
end

