-- ==== Sys2Proof/Machine/Bytes.lean ====
section
/-! DEFINITION. Byte order and word helpers (00_scope.md R10, R11). -/

namespace Sys2Proof.Machine

/-- `BE32(b)`: four bytes as an integer, most significant first. -/
def be32 (b0 b1 b2 b3 : Byte) : Word := b0 ++ b1 ++ b2 ++ b3

/-- `LE32(b)`: four bytes as an integer, least significant first. -/
def le32 (b0 b1 b2 b3 : Byte) : Word := be32 b3 b2 b1 b0

/-- Byte `i` of a word, counted from the most significant. -/
def beByte (w : Word) (i : Fin 4) : Byte := w.extractLsb' (24 - 8 * i.val) 8

/-- The 8 bytes of a 64-bit value, most significant first: `BE64(x)`. -/
def be64 (x : DWord) : List Byte :=
  [x.extractLsb' 56 8, x.extractLsb' 48 8, x.extractLsb' 40 8, x.extractLsb' 32 8,
   x.extractLsb' 24 8, x.extractLsb' 16 8, x.extractLsb' 8 8, x.extractLsb' 0 8]

/-- The same bytes, least significant first: `LE64(x)`. -/
def le64 (x : DWord) : List Byte := (be64 x).reverse

/-- `rotl32(x, n)`, the 32-bit left rotation. -/
def rotl32 (x : Word) (n : Nat) : Word := (x <<< n) ||| (x >>> (32 - n))

/-- The big-endian words of a byte list, four bytes each. -/
def wordsBE : List Byte → List Word
  | b0 :: b1 :: b2 :: b3 :: rest => be32 b0 b1 b2 b3 :: wordsBE rest
  | _ => []

/-- The little-endian words of a byte list, four bytes each. -/
def wordsLE : List Byte → List Word
  | b0 :: b1 :: b2 :: b3 :: rest => le32 b0 b1 b2 b3 :: wordsLE rest
  | _ => []

/-- The first `n` blocks of 64 bytes of a message. -/
def blocks64 : (n : Nat) → List Byte → List (List Byte)
  | 0, _ => []
  | n + 1, m => m.take 64 :: blocks64 n (m.drop 64)

/-- The number of zero bytes that pad a message of `len` bytes: the smallest z with (len + 1 + z + 8) mod 64 = 0
(41_hmac_sha1.md R120, 42_hmac_md5.md R150). -/
def padZeros (len : Nat) : Nat := (119 - len % 64) % 64

/-- A message with the 0x80 byte, its zero padding and a length field appended (R120, R150). -/
def padWith (lengthField : DWord → List Byte) (m : List Byte) : List Byte :=
  m ++ 0x80 :: (List.replicate (padZeros m.length) 0 ++ lengthField (BitVec.ofNat 64 (8 * m.length)))

end Sys2Proof.Machine
end

