-- ==== Sys2Proof/Machine/Operands.lean ====
section
/-! DEFINITION. What commands read and how (30_encoding.md R93, R97), and the word and byte views of the buffers (10_state.md R40). -/

namespace Sys2Proof.Machine

/-- `snapshot()`: the values the operand registers hold now (R97). -/
def Block.snapshot (b : Block) : Operands where
  time    := b.time
  step    := b.step
  keylen  := b.keylen
  key     := b.key
  counter := b.counter
  digest1 := b.digest1
  digest2 := b.digest2
  result  := b.result

/-- The operands a completing command uses: the snapshot of its acceptance (R98), or, with no command in flight, the registers as
they are (R97: in every reachable state the two agree; log entry 3). -/
def Block.operands (b : Block) : Operands :=
  match b.inflight with
  | some f => f.snap
  | none => b.snapshot

/-- The commands that read KEYLEN, which acceptance checks (R93, R96, 60_exceptions.md R225). -/
def readsKeylen : Instr → Bool
  | .hsha1 | .derive | .totp => true
  | .cdiv | .hmd5 | .trunc | .fmt | .zeroize => false

/-- The secret: `bytes(KEY.byte, 0, KEYLEN)` (10_state.md R41, 41_hmac_sha1.md R128). -/
def Operands.secret (o : Operands) : List Byte := o.key.toList.take o.keylen.toNat

/-- The message of both HMACs: `BE64(COUNTER)` (R127). -/
def counterBytes (counter : DWord) : List Byte := be64 counter

/-- DIGEST1_i, the word of bytes 4i to 4i+3, most significant first (R38, R40). -/
def digest1Word (d : Vector Byte 20) (i : Fin 5) : Word :=
  be32 d[4 * i.val] d[4 * i.val + 1] d[4 * i.val + 2] d[4 * i.val + 3]

/-- DIGEST2_i (R39, R40). -/
def digest2Word (d : Vector Byte 16) (i : Fin 4) : Word :=
  be32 d[4 * i.val] d[4 * i.val + 1] d[4 * i.val + 2] d[4 * i.val + 3]

/-- The key buffer with word i written: byte 4i takes bits [31:24], and so on (R40, 20_memory.md R63). -/
def setKeyWord (k : Vector Byte 256) (i : Fin 64) (v : Word) : Vector Byte 256 :=
  (((k.set (4 * i.val) (beByte v 0)).set (4 * i.val + 1) (beByte v 1)).set
    (4 * i.val + 2) (beByte v 2)).set (4 * i.val + 3) (beByte v 3)

/-- A 64-bit register with its low half written (R63, R68). -/
def setLow (x : DWord) (v : Word) : DWord := x.extractLsb' 32 32 ++ v

/-- A 64-bit register with its high half written (R63, R68). -/
def setHigh (x : DWord) (v : Word) : DWord := v ++ x.extractLsb' 0 32

end Sys2Proof.Machine
end

