-- ==== Sys2Proof/Machine/Ops.lean ====
section
/-! DEFINITION. The shared operations: recording an error (this block's form of taking an exception), accepting a command, completing one,
the bus reads and writes of the register window, and the reset event. -/

namespace Sys2Proof.Machine

/-! ## Errors: record and return (60_exceptions.md R221, R231, R232)

There is no trap entry and no return: an error saves nothing and redirects nothing. `raise` is the whole of "taking" one; the host's
W1C write (`Block.w1c`) and the next acceptance attempt (`Block.clearForAccept`) are the whole of coming back. -/

/-- `raise E(info)`: ERR <- 1, ERRCODE <- code(E), and nothing else (R221). -/
def Block.raise (b : Block) (code : BitVec 4) : Block := { b with err := true, errcode := code }

/-! ## Acceptance and completion (30_encoding.md R96, R98) -/

/-- The end of a successful acceptance: the command is in flight with its snapshot, and BUSY is 1 (R96). -/
def Block.start (b : Block) (i : Instr) : Block :=
  { b with inflight := some ⟨i, b.snapshot⟩, busy := true }

/-- `accept(w)` (R96), with the priority of its two errors (60_exceptions.md R228): an illegal word, then a bad KEYLEN. -/
def Block.accept (b : Block) (w : Word) : Block :=
  let b := b.clearForAccept
  match decode w with
  | .error _ => b.raise errIllegalCmd
  | .ok i =>
    if readsKeylen i && decide (b.keylen.toNat > Config.keyMax) then b.raise errKeylenRange
    else b.start i

/-- The machine with another block. -/
def State.setBlk (s : State) (b : Block) : State := { s with blk := b }

/-- `complete()` for a command whose effect is `effect`: all its writes and the flags in one step (R98, R13). No effect can fail. -/
def complete (effect : Operands → Block → Block) (s : State) : Host.Outcome State Fault Refusal :=
  .next (s.setBlk (effect s.blk.operands s.blk).finish)

/-! ## What commands write (30_encoding.md R93) -/

/-- COUNTER, both halves at once (10_state.md R33). -/
def Block.setCounter (b : Block) (c : DWord) : Block := { b with counter := c }

/-- DIGEST1 (R38). -/
def Block.setDigest1 (b : Block) (d : Vector Byte 20) : Block := { b with digest1 := d }

/-- DIGEST2 (R39). -/
def Block.setDigest2 (b : Block) (d : Vector Byte 16) : Block := { b with digest2 := d }

/-- OFFSET, HEADER and RESULT (R34 to R36). -/
def Block.setTruncated (b : Block) (o : BitVec 3) (h : Word) (r : BitVec 20) : Block :=
  { b with offset := o, header := h, result := r }

/-- CODE_LO and CODE_HI, both at once (R37). -/
def Block.setCode (b : Block) (lo hi : Word) : Block := { b with codeLo := lo, codeHi := hi }

/-- KEY and KEYLEN (R41, R31). -/
def Block.setSecret (b : Block) (k : Vector Byte 256) (n : Word) : Block := { b with key := k, keylen := n }

/-! ## The register window (20_memory.md R62, R63) -/

/-- The input registers, whose writes are dropped while BUSY = 1 (R65, R20). -/
def isInput : Reg → Bool
  | .cmd | .step | .keylen | .timeLo | .timeHi | .counterLo | .counterHi | .key _ => true
  | .ident | .ctrl | .status | .offset | .header | .result | .codeLo | .codeHi
  | .digest1 _ | .digest2 _ | .reserved => false

/-- The value a legal read returns (R62). -/
def Block.readReg (b : Block) : Reg → Word
  | .ident => Config.idValue
  | .ctrl => flagWord b.ctrlIe
  | .status => b.statusWord
  | .cmd => b.cmd
  | .step => b.step
  | .keylen => b.keylen
  | .timeLo => b.time.extractLsb' 0 32
  | .timeHi => b.time.extractLsb' 32 32
  | .counterLo => b.counter.extractLsb' 0 32
  | .counterHi => b.counter.extractLsb' 32 32
  | .offset => b.offset.setWidth 32
  | .header => b.header
  | .result => b.result.setWidth 32
  | .codeLo => b.codeLo
  | .codeHi => b.codeHi
  | .digest1 i => digest1Word b.digest1 i
  | .digest2 i => digest2Word b.digest2 i
  | .key _ => 0
  | .reserved => 0

/-- The effect of a write that is not dropped (R63): WARL for STEP (R67), W1C for STATUS (R66), an acceptance attempt for CMD, nothing for
read-only registers and reserved offsets (R64). -/
def Block.storeReg (b : Block) (r : Reg) (v : Word) : Block :=
  match r with
  | .ctrl => { b with ctrlIe := v[0] }
  | .status => b.w1c v
  | .cmd => { b with cmd := v }.accept v
  | .step => if v = 0 then b else { b with step := v }
  | .keylen => { b with keylen := v }
  | .timeLo => { b with time := setLow b.time v }
  | .timeHi => { b with time := setHigh b.time v }
  | .counterLo => { b with counter := setLow b.counter v }
  | .counterHi => { b with counter := setHigh b.counter v }
  | .key i => { b with key := setKeyWord b.key i v }
  | .ident | .offset | .header | .result | .codeLo | .codeHi | .digest1 _ | .digest2 _ | .reserved => b

/-- A legal write: dropped with WERR if the register is an input and BUSY = 1 (R63, R65). -/
def Block.writeReg (b : Block) (r : Reg) (v : Word) : Block :=
  if isInput r && b.busy then b.dropWrite else b.storeReg r v

/-- `MemRead(a, 4)` for a legal read (R62). -/
def Block.memRead (b : Block) (a : BitVec 12) : Word := b.readReg (Reg.ofOffset a)

/-- `MemWrite(a, 4, v)` for a legal write (R63). -/
def Block.memWrite (b : Block) (a : BitVec 12) (v : Word) : Block := b.writeReg (Reg.ofOffset a) v

/-! ## Bus transactions (20_memory.md R60, R61) -/

/-- What the block answers: bus_err, and bus_rdata, which only a read has. -/
structure BusAnswer where
  err   : Bool
  rdata : Word
deriving DecidableEq, Repr

/-- The offset is a multiple of 4 (R61). -/
def aligned (a : BitVec 12) : Bool := a.extractLsb' 0 2 == 0

/-- A write is legal when it is aligned and drives all four strobes; a read, whose strobes are ignored, when it is aligned (R61). -/
def legalWrite (a : BitVec 12) (strb : BitVec 4) : Bool := aligned a && strb == 0xF

/-- A read transaction with the given rst_n level. It changes no state; while rst_n = 0 its data is 0 (R62, R61, R260; log entry 6). -/
def busRead (rstN : Bool) (b : Block) (a : BitVec 12) : BusAnswer :=
  { err := !aligned a, rdata := if aligned a && rstN then b.memRead a else 0 }

/-- The block after a write transaction: unchanged if the transaction is illegal or rst_n = 0 (R61, R260). -/
def busWrite (rstN : Bool) (b : Block) (a : BitVec 12) (strb : BitVec 4) (v : Word) : Block :=
  if legalWrite a strb && rstN then b.memWrite a v else b

/-! ## Reset (70_reset_and_hazards.md R260, R263) -/

/-- A clk edge with rst_n = 0: every register at its reset value, any in-flight command discarded without effects. The host is no part of
the block and keeps its program and variables. -/
def State.assertReset (s : State) : State := { s with blk := Block.reset, rstN := false }

/-- rst_n returns to 1. -/
def State.releaseReset (s : State) : State := { s with rstN := true }

/-! ## The platform's address map (20_memory.md R71, 00_scope.md R9) -/

/-- The bus address of a window offset. -/
def busAddress (a : BitVec 12) : Nat := Config.base + a.toNat

/-- The window offset of a bus address; none outside `BASE` to `BASE + 0xFFF`, where the block is not addressed. -/
def windowOffset (addr : Nat) : Option (BitVec 12) :=
  if Config.base ≤ addr ∧ addr ≤ Config.base + 0xFFF then some (BitVec.ofNat 12 (addr - Config.base)) else none

end Sys2Proof.Machine
end

