-- ==== Sys2Proof/Machine/Divider.lean ====
section
/-! DEFINITION. The counter divider and its command CDIV (40_counter_divider.md). -/

namespace Sys2Proof.Machine

/-- `TIME / zext_64(STEP)`, the unsigned floor quotient (R110, R111); free for the STEP = 0 that no run reaches (R49, log entry 10). -/
def divideTime (o : Operands) : DWord :=
  if o.step = 0 then Config.quotientByZero o.time else o.time / o.step.setWidth 64

/-- effect(CDIV, s) (R110). -/
def effectCdiv (o : Operands) (b : Block) : Block := b.setCounter (divideTime o)

/-- CDIV at its completion (R110, R98). -/
def execCdiv (s : State) : Host.Outcome State Fault Refusal := complete effectCdiv s

end Sys2Proof.Machine
end

