-- ==== Sys2Proof/Machine/Md5.lean ====
section
/-! DEFINITION. MD5 (42_hmac_md5.md R150 to R156). The spec takes it from general knowledge (G2). -/

namespace Sys2Proof.Machine

/-- The four-word chaining value, and the working variables a to d. -/
structure Md5Vars where
  a : Word
  b : Word
  c : Word
  d : Word
deriving DecidableEq, Repr

/-- Initial chaining value (R151). -/
def md5Init : Md5Vars := ⟨0x67452301, 0xEFCDAB89, 0x98BADCFE, 0x10325476⟩

/-- Padding, with a little-endian length field (R150). -/
def pad5 (m : List Byte) : List Byte := padWith le64 m

/-- The constants T[0] to T[63], eight a row (R152). -/
def md5Table : List Word :=
  [0xD76AA478, 0xE8C7B756, 0x242070DB, 0xC1BDCEEE, 0xF57C0FAF, 0x4787C62A, 0xA8304613, 0xFD469501] ++
  [0x698098D8, 0x8B44F7AF, 0xFFFF5BB1, 0x895CD7BE, 0x6B901122, 0xFD987193, 0xA679438E, 0x49B40821] ++
  [0xF61E2562, 0xC040B340, 0x265E5A51, 0xE9B6C7AA, 0xD62F105D, 0x02441453, 0xD8A1E681, 0xE7D3FBC8] ++
  [0x21E1CDE6, 0xC33707D6, 0xF4D50D87, 0x455A14ED, 0xA9E3E905, 0xFCEFA3F8, 0x676F02D9, 0x8D2A4C8A] ++
  [0xFFFA3942, 0x8771F681, 0x6D9D6122, 0xFDE5380C, 0xA4BEEA44, 0x4BDECFA9, 0xF6BB4B60, 0xBEBFBC70] ++
  [0x289B7EC6, 0xEAA127FA, 0xD4EF3085, 0x04881D05, 0xD9D4D039, 0xE6DB99E5, 0x1FA27CF8, 0xC4AC5665] ++
  [0xF4292244, 0x432AFF97, 0xAB9423A7, 0xFC93A039, 0x655B59C3, 0x8F0CCC92, 0xFFEFF47D, 0x85845DD1] ++
  [0x6FA87E4F, 0xFE2CE6E0, 0xA3014314, 0x4E0811A1, 0xF7537E82, 0xBD3AF235, 0x2AD7D2BB, 0xEB86D391]

/-- The rotation amount s[i] (R153). -/
def md5Shift (i : Nat) : Nat :=
  if i < 16 then [7, 12, 17, 22].getD (i % 4) 0
  else if i < 32 then [5, 9, 14, 20].getD (i % 4) 0
  else if i < 48 then [4, 11, 16, 23].getD (i % 4) 0
  else [6, 10, 15, 21].getD (i % 4) 0

/-- The message index g(i) (R153). -/
def md5Index (i : Nat) : Nat :=
  if i < 16 then i
  else if i < 32 then (5 * i + 1) % 16
  else if i < 48 then (3 * i + 5) % 16
  else (7 * i) % 16

/-- The step function f_i (R153). -/
def md5F (i : Nat) (b c d : Word) : Word :=
  if i < 16 then (b &&& c) ||| (~~~b &&& d)
  else if i < 32 then (b &&& d) ||| (c &&& ~~~d)
  else if i < 48 then b ^^^ c ^^^ d
  else c ^^^ (b ||| ~~~d)

/-- Step i with constant k, on the block's words x (R154); additions wrap at 2^32. -/
def md5Step (x : List Word) (v : Md5Vars) (i : Nat) (k : Word) : Md5Vars :=
  ⟨v.d, v.b + rotl32 (v.a + md5F i v.b v.c v.d + k + x.getD (md5Index i) 0) (md5Shift i), v.b, v.c⟩

/-- The steps from step i on, one for each constant of the list. -/
def md5Steps (x : List Word) : (i : Nat) → List Word → Md5Vars → Md5Vars
  | _, [], v => v
  | i, k :: ks, v => md5Steps x (i + 1) ks (md5Step x v i k)

/-- Compression of one block into the chaining value (R154). -/
def md5Compress (h : Md5Vars) (block : List Byte) : Md5Vars :=
  let v := md5Steps (wordsLE block) 0 md5Table h
  ⟨h.a + v.a, h.b + v.b, h.c + v.c, h.d + v.d⟩

/-- The final chaining value of a message (R155). -/
def md5Hash (m : List Byte) : Md5Vars :=
  let p := pad5 m
  (blocks64 (p.length / 64) p).foldl md5Compress md5Init

/-- The 16 output bytes of a chaining value, each word least significant byte first (R156). -/
def md5Output (h : Md5Vars) : Vector Byte 16 :=
  #v[beByte h.a 3, beByte h.a 2, beByte h.a 1, beByte h.a 0,
     beByte h.b 3, beByte h.b 2, beByte h.b 1, beByte h.b 0,
     beByte h.c 3, beByte h.c 2, beByte h.c 1, beByte h.c 0,
     beByte h.d 3, beByte h.d 2, beByte h.d 1, beByte h.d 0]

/-- MD5(m) (R156). -/
def md5 (m : List Byte) : Vector Byte 16 := md5Output (md5Hash m)

end Sys2Proof.Machine
end

