-- ==== Sys2Proof/Machine/Sha1.lean ====
section
/-! DEFINITION. SHA-1 (41_hmac_sha1.md R120 to R125, R130). The spec takes it from general knowledge (G1). -/

namespace Sys2Proof.Machine

/-- The five-word chaining value, and the working variables a to e. -/
structure Sha1Vars where
  a : Word
  b : Word
  c : Word
  d : Word
  e : Word
deriving DecidableEq, Repr

/-- Initial chaining value (R121). -/
def sha1Init : Sha1Vars := ⟨0x67452301, 0xEFCDAB89, 0x98BADCFE, 0x10325476, 0xC3D2E1F0⟩

/-- Padding, with a big-endian length field (R120). -/
def pad1 (m : List Byte) : List Byte := padWith be64 m

/-- Extends a schedule held newest word first by `n` words (R122). -/
def sha1Extend : (n : Nat) → List Word → List Word
  | 0, ws => ws
  | n + 1, ws =>
    sha1Extend n (rotl32 (ws.getD 2 0 ^^^ ws.getD 7 0 ^^^ ws.getD 13 0 ^^^ ws.getD 15 0) 1 :: ws)

/-- The 80 words W_0 to W_79 of a 64-byte block (R120, R122). -/
def sha1Schedule (block : List Byte) : List Word :=
  (sha1Extend 64 (wordsBE block).reverse).reverse

/-- The round function f_t (R123). -/
def sha1F (t : Nat) (b c d : Word) : Word :=
  if t < 20 then (b &&& c) ||| (~~~b &&& d)
  else if t < 40 then b ^^^ c ^^^ d
  else if t < 60 then (b &&& c) ||| (b &&& d) ||| (c &&& d)
  else b ^^^ c ^^^ d

/-- The round constant K_t (R123). -/
def sha1K (t : Nat) : Word :=
  if t < 20 then 0x5A827999
  else if t < 40 then 0x6ED9EBA1
  else if t < 60 then 0x8F1BBCDC
  else 0xCA62C1D6

/-- Round t with schedule word w (R124); additions wrap at 2^32 (R130). -/
def sha1Round (v : Sha1Vars) (t : Nat) (w : Word) : Sha1Vars :=
  ⟨rotl32 v.a 5 + sha1F t v.b v.c v.d + v.e + sha1K t + w, v.a, rotl32 v.b 30, v.c, v.d⟩

/-- The rounds from round t on, one for each word of the list. -/
def sha1Rounds : (t : Nat) → List Word → Sha1Vars → Sha1Vars
  | _, [], v => v
  | t, w :: ws, v => sha1Rounds (t + 1) ws (sha1Round v t w)

/-- Compression of one block into the chaining value (R124). -/
def sha1Compress (h : Sha1Vars) (block : List Byte) : Sha1Vars :=
  let v := sha1Rounds 0 (sha1Schedule block) h
  ⟨h.a + v.a, h.b + v.b, h.c + v.c, h.d + v.d, h.e + v.e⟩

/-- The final chaining value of a message. -/
def sha1Hash (m : List Byte) : Sha1Vars :=
  let p := pad1 m
  (blocks64 (p.length / 64) p).foldl sha1Compress sha1Init

/-- The 20 output bytes of a chaining value, each word most significant byte first (R125). -/
def sha1Output (h : Sha1Vars) : Vector Byte 20 :=
  #v[beByte h.a 0, beByte h.a 1, beByte h.a 2, beByte h.a 3,
     beByte h.b 0, beByte h.b 1, beByte h.b 2, beByte h.b 3,
     beByte h.c 0, beByte h.c 1, beByte h.c 2, beByte h.c 3,
     beByte h.d 0, beByte h.d 1, beByte h.d 2, beByte h.d 3,
     beByte h.e 0, beByte h.e 1, beByte h.e 2, beByte h.e 3]

/-- SHA1(m) (R125). -/
def sha1 (m : List Byte) : Vector Byte 20 := sha1Output (sha1Hash m)

end Sys2Proof.Machine
end

