-- ==== Sys2Proof/Machine/Hmac.lean ====
section
/-! DEFINITION. The HMAC construction (41_hmac_sha1.md R126) and its two uses (R128, 42_hmac_md5.md R157). The spec takes it from general knowledge (G3). -/

namespace Sys2Proof.Machine

/-- K0: the key, hashed first if it is longer than a block, zero-padded to a block (R126). -/
def hmacBlockKey {n : Nat} (hash : List Byte → Vector Byte n) (k : List Byte) : List Byte :=
  let k1 := if k.length > Config.hmacBlock then (hash k).toList else k
  k1 ++ List.replicate (Config.hmacBlock - k1.length) 0

/-- HMAC_H(K, m) (R126). -/
def hmac {n : Nat} (hash : List Byte → Vector Byte n) (k m : List Byte) : Vector Byte n :=
  let k0 := hmacBlockKey hash k
  hash (k0.map (· ^^^ 0x5C) ++ (hash (k0.map (· ^^^ 0x36) ++ m)).toList)

/-- HMAC-SHA1, 20 bytes (R126 with H = SHA1). -/
def hmacSha1 (k m : List Byte) : Vector Byte 20 := hmac sha1 k m

/-- HMAC-MD5, 16 bytes (R157). -/
def hmacMd5 (k m : List Byte) : Vector Byte 16 := hmac md5 k m

end Sys2Proof.Machine
end

