-- ==== Sys2Proof/Machine/Hash.lean ====
section
/-! DEFINITION. The two HMAC engines' commands HSHA1 (41_hmac_sha1.md) and HMD5 (42_hmac_md5.md). -/

namespace Sys2Proof.Machine

/-- effect(HSHA1, s): HMAC-SHA1 of the counter under the secret (R128). -/
def effectHsha1 (o : Operands) (b : Block) : Block :=
  b.setDigest1 (hmacSha1 o.secret (counterBytes o.counter))

/-- effect(HMD5, s): HMAC-MD5 of the counter under the 20 bytes of DIGEST1 (R158). -/
def effectHmd5 (o : Operands) (b : Block) : Block :=
  b.setDigest2 (hmacMd5 o.digest1.toList (counterBytes o.counter))

/-- HSHA1 at its completion (R128, R98). -/
def execHsha1 (s : State) : Host.Outcome State Fault Refusal := complete effectHsha1 s

/-- HMD5 at its completion (R158, R98). -/
def execHmd5 (s : State) : Host.Outcome State Fault Refusal := complete effectHmd5 s

end Sys2Proof.Machine
end

