-- ==== Sys2Proof/Machine/Truncate.lean ====
section
/-! DEFINITION. The digit truncator and the 6-digit formatter, commands TRUNC and FMT (43_truncate_format.md). -/

namespace Sys2Proof.Machine

/-- `o = d2[9] & 0x05` (R170, R171). -/
def offsetOf (d2 : Vector Byte 16) : BitVec 3 :=
  (d2[Config.offsetIndex] &&& Config.offsetMask).setWidth 3

/-- `h = BE32(bytes(d2, o, 4))` (R170). A 3-bit offset never leaves the 16 bytes. -/
def headerAt (d2 : Vector Byte 16) (o : BitVec 3) : Word :=
  have := o.isLt
  be32 d2[o.toNat] d2[o.toNat + 1] d2[o.toNat + 2] d2[o.toNat + 3]

/-- `r = (h & 0x7FFFFFFF) mod 1000000` (R170, R172). -/
def resultOf (h : Word) : BitVec 20 := ((h &&& Config.signMask) % Config.modulus).setWidth 20

/-- The three result registers from a DIGEST2 value (R170). -/
def truncateInto (d2 : Vector Byte 16) (b : Block) : Block :=
  let o := offsetOf d2
  let h := headerAt d2 o
  b.setTruncated o h (resultOf h)

/-- `c[k] = 0x30 + ((r / 10^(5-k)) mod 10)`, k = 0 to 5 (R173, R174). -/
def digit (r : BitVec 20) (k : Nat) : Byte :=
  BitVec.ofNat 8 (Config.asciiZero + r.toNat / 10 ^ (5 - k) % 10)

/-- The two code registers from a RESULT value; CODE_HI bits [15:0] are 0 (R173, R37). -/
def formatInto (r : BitVec 20) (b : Block) : Block :=
  b.setCode (be32 (digit r 0) (digit r 1) (digit r 2) (digit r 3)) (be32 (digit r 4) (digit r 5) 0 0)

/-- effect(TRUNC, s) (R170). -/
def effectTrunc (o : Operands) (b : Block) : Block := truncateInto o.digest2 b

/-- effect(FMT, s) (R173). -/
def effectFmt (o : Operands) (b : Block) : Block := formatInto o.result b

/-- TRUNC at its completion (R170, R98). -/
def execTrunc (s : State) : Host.Outcome State Fault Refusal := complete effectTrunc s

/-- FMT at its completion (R173, R98). -/
def execFmt (s : State) : Host.Outcome State Fault Refusal := complete effectFmt s

end Sys2Proof.Machine
end

