-- ==== Sys2Proof/Machine/Composite.lean ====
section
/-! DEFINITION. The composite commands DERIVE and TOTP and the key erase ZEROIZE (44_composite_control.md). -/

namespace Sys2Proof.Machine

/-- effect(DERIVE, s): steps 2 to 8 on values, the registers written together (R190, R194). The MD5 key is the d1 of this command. -/
def effectDerive (o : Operands) (b : Block) : Block :=
  let cb := counterBytes o.counter
  let d1 := hmacSha1 o.secret cb
  let d2 := hmacMd5 d1.toList cb
  formatInto (resultOf (headerAt d2 (offsetOf d2))) (truncateInto d2 ((b.setDigest1 d1).setDigest2 d2))

/-- effect(TOTP, s): the counter from TIME and STEP, then DERIVE with that counter (R191). -/
def effectTotp (o : Operands) (b : Block) : Block :=
  let c := divideTime o
  effectDerive { o with counter := c } (b.setCounter c)

/-- effect(ZEROIZE, s): the key, its length and every derived register (R192). -/
def effectZeroize (_ : Operands) (b : Block) : Block :=
  ((((b.setSecret (Vector.replicate 256 0) 0).setDigest1 (Vector.replicate 20 0)).setDigest2 (Vector.replicate 16 0)).setTruncated
    0 0 0).setCode 0 0

/-- DERIVE at its completion (R190, R98). -/
def execDerive (s : State) : Host.Outcome State Fault Refusal := complete effectDerive s

/-- TOTP at its completion (R191, R98). -/
def execTotp (s : State) : Host.Outcome State Fault Refusal := complete effectTotp s

/-- ZEROIZE at its completion (R192, R98). -/
def execZeroize (s : State) : Host.Outcome State Fault Refusal := complete effectZeroize s

end Sys2Proof.Machine
end

