-- ==== Sys2Proof/Machine/Dispatch.lean ====
section
/-! DEFINITION. The dispatch: one arm per command, each one call of that command's meaning (30_encoding.md R92). -/

namespace Sys2Proof.Machine

/-- The completion of command `i` (R98). Its acceptance is `Block.accept` (R96). -/
def exec (i : Instr) (s : State) : Host.Outcome State Fault Refusal :=
  match i with
  | .cdiv => Sys2Proof.Machine.execCdiv s
  | .hsha1 => Sys2Proof.Machine.execHsha1 s
  | .hmd5 => Sys2Proof.Machine.execHmd5 s
  | .trunc => Sys2Proof.Machine.execTrunc s
  | .fmt => Sys2Proof.Machine.execFmt s
  | .derive => Sys2Proof.Machine.execDerive s
  | .totp => Sys2Proof.Machine.execTotp s
  | .zeroize => Sys2Proof.Machine.execZeroize s

end Sys2Proof.Machine
end

