-- ==== Sys2Proof/Machine/Agents.lean ====
section
/-! DEFINITION. The two agents' steps (00_scope.md R15, 20_memory.md R73): the engine's completion and the host's next transaction. -/

namespace Sys2Proof.Machine

/-- The engine's step. It is enabled exactly when BUSY = 1 (30_encoding.md R98); not enabled, it changes nothing. -/
def engineStep (s : State) : Host.Outcome State Fault Refusal :=
  match s.blk.busy, s.blk.inflight with
  | true, some f => exec f.op s
  | _, _ => .next s

/-- The host takes note of an answer: bus_err of this transaction, and a host-side fault if it is 1 (60_exceptions.md R227). The host
goes on (R220; 95_test_vectors.md program P3; log entry 5). -/
def HostState.noteAnswer (h : HostState) (err : Bool) : HostState :=
  { h with busErr := err, fault := h.fault || err }

/-- The host takes a read's answer into variable `v`. -/
def HostState.takeRead (h : HostState) (v : Fin 16) (ans : BusAnswer) : HostState :=
  { h.noteAnswer ans.err with rdata := ans.rdata, vars := h.vars.set v ans.rdata }

/-- The host takes a write's answer. A write drives no data of its own, so bus_rdata stays the last read's (log entry 4); while rst_n = 0
every transaction, a write too, completes with rdata = 0 (70_reset_and_hazards.md R260). -/
def HostState.takeWrite (h : HostState) (rstN err : Bool) : HostState :=
  { h.noteAnswer err with rdata := if rstN then h.rdata else 0 }

/-- A read of offset `a` into host variable `v`; the block is unchanged (20_memory.md R62, R72). -/
def hostRead (s : State) (a : BitVec 12) (v : Fin 16) : State :=
  { s with host := s.host.takeRead v (busRead s.rstN s.blk a) }

/-- A write transaction (R63, R61, R260). -/
def hostWrite (s : State) (a : BitVec 12) (strb : BitVec 4) (v : Word) : State :=
  { s with blk := busWrite s.rstN s.blk a strb v, host := s.host.takeWrite s.rstN (!legalWrite a strb) }

/-- The host variable POLL reads STATUS into, v15 (30_encoding.md R100). -/
def pollVar : Fin 16 := 15

/-- The host's step: its next transaction, in program order (R73). POLL reads STATUS into v15 and repeats while bit 0 of what it
read there is 1 (R100). A host with no program left does nothing. -/
def hostStep (s : State) : State :=
  match s.host.prog with
  | [] => s
  | .rd a v :: rest => hostRead { s with host := { s.host with prog := rest } } a v
  | .wr a strb v :: rest => hostWrite { s with host := { s.host with prog := rest } } a strb v
  | .poll :: rest =>
    let ans := busRead s.rstN s.blk Reg.status.toOffset
    { s with host := { s.host.takeRead pollVar ans with prog := if ans.rdata[0] then .poll :: rest else rest } }

/-- The step of the agent an event names. -/
def eventStep (e : Event) (s : State) : Host.Outcome State Fault Refusal :=
  match e with
  | .host => .next (hostStep s)
  | .engine => engineStep s
  | .resetLow => .next s.assertReset
  | .resetHigh => .next s.releaseReset

/-- Who moves when no interleaving is left to follow: the engine if a command is in flight, and the host otherwise. So every accepted
command completes unless a reset intervenes (R98, 70_reset_and_hazards.md R272). -/
def defaultEvent (s : State) : Event := if s.blk.busy then .engine else .host

/-- The state in which the next step completes the command word `w`: the host's CMD write of `w` to the idle block has just been accepted
(30_encoding.md R96), and the engine moves next. A word that acceptance rejects is not in flight, and that step changes nothing. -/
def issueNow (s : State) (w : Word) : State :=
  { s with blk := ({ s.blk with busy := false, inflight := none }).storeReg .cmd w
           rstN := true
           sched := .engine :: s.sched }

end Sys2Proof.Machine
end

