-- ==== Sys2Proof/Machine/Step.lean ====
section
/-! DEFINITION. One atomic step of the machine (20_memory.md R73), and where a command word stands so that the next step runs it. -/

namespace Sys2Proof.Machine

/-- One atomic step: the next event of the interleaving, or, with none left, whoever is enabled. -/
def step (s : State) : Host.Outcome State Fault Refusal :=
  match s.sched with
  | [] => eventStep (defaultEvent s) s
  | e :: rest => eventStep e { s with sched := rest }

/-- The state in which the next step runs the command word `w` (log entry 1: there is no program counter and no fetch, R45; a
command comes to run by the host's write of its word to CMD). -/
def State.withFetchWord (s : State) (nbits w : Nat) : State :=
  issueNow s (BitVec.ofNat 32 (w % 2 ^ nbits))

end Sys2Proof.Machine
end

