-- ==== Sys2Proof/Machine/HostProgram.lean ====
section
/-! DEFINITION. Host programs: the expansion of statements to bus transactions (30_encoding.md R99, R100), their program encoding (R102), and
giving a program to the host. -/

namespace Sys2Proof.Machine

/-- The byte strobes every `WR` drives (20_memory.md R60). -/
def allStrobes : BitVec 4 := 0xF

/-- The word an immediate denotes (R99). -/
def immWord : Imm → Word
  | .num n => BitVec.ofNat 32 n
  | .word i => encode i

/-- One `WR` of a word to a register. -/
def wrOp (r : Reg) (v : Word) : HostOp := .wr r.toOffset allStrobes v

/-- The words LDKEY writes: four bytes each, most significant first, missing bytes 0x00 (R100). -/
def keyWords : List Nat → List Word
  | [] => []
  | [b0] => [be32 (BitVec.ofNat 8 b0) 0 0 0]
  | [b0, b1] => [be32 (BitVec.ofNat 8 b0) (BitVec.ofNat 8 b1) 0 0]
  | [b0, b1, b2] => [be32 (BitVec.ofNat 8 b0) (BitVec.ofNat 8 b1) (BitVec.ofNat 8 b2) 0]
  | b0 :: b1 :: b2 :: b3 :: rest =>
    be32 (BitVec.ofNat 8 b0) (BitVec.ofNat 8 b1) (BitVec.ofNat 8 b2) (BitVec.ofNat 8 b3) :: keyWords rest

/-- The writes of a list of words to KEY_i, KEY_(i+1) and on. -/
def keyWrites : (i : Nat) → List Word → List HostOp
  | _, [] => []
  | i, w :: ws => .wr (BitVec.ofNat 12 (0x100 + 4 * i)) allStrobes w :: keyWrites (i + 1) ws

/-- The two halves of a 64-bit register, low first (R100). -/
def wideRegs : Wide → Reg × Reg
  | .time => (.timeLo, .timeHi)
  | .counter => (.counterLo, .counterHi)

/-- The bus transactions of a well-formed statement (R99, R100). -/
def expand : Stmt → List HostOp
  | .blank | .label => []
  | .wrReg r v => [wrOp r (immWord v)]
  | .rdReg r v => [.rd r.toOffset (Fin.ofNat 16 v)]
  | .wrOff off v => [.wr (BitVec.ofNat 12 off) allStrobes (immWord v)]
  | .rdOff off v => [.rd (BitVec.ofNat 12 off) (Fin.ofNat 16 v)]
  | .issue i => [wrOp .cmd (encode i)]
  | .issueW v => [wrOp .cmd (immWord v)]
  | .poll => [.poll]
  | .ld64 r v => [wrOp (wideRegs r).1 (BitVec.ofNat 32 (v % 2 ^ 32)), wrOp (wideRegs r).2 (BitVec.ofNat 32 (v / 2 ^ 32))]
  | .ldkey bytes => wrOp .keylen (BitVec.ofNat 32 bytes.length) :: keyWrites 0 (keyWords bytes)
  | .clrst => [wrOp .status 0x0000000E]

/-- The transactions of a program; none if a statement is ill-formed (R99). -/
def assemble (p : List Stmt) : Option (List HostOp) :=
  if p.all Stmt.wf then some (p.flatMap expand) else none

/-- The encoding of a transaction, `W <offset> <data>` or `R <offset>`; a POLL loop is its first `R 008`, marked (R102). -/
def encodeOp : HostOp → List Char
  | .rd off _ => 'R' :: ' ' :: hexDigits 3 off.toNat
  | .wr off _ v => 'W' :: ' ' :: (hexDigits 3 off.toNat ++ ' ' :: hexDigits 8 v.toNat)
  | .poll => 'R' :: ' ' :: (hexDigits 3 Reg.status.toOffset.toNat ++ ['*'])

/-- The host is given a program to run, with an interleaving to follow (log entry 1). -/
def State.load (s : State) (prog : List HostOp) (sched : List Event) : State :=
  { s with host := { s.host with prog := prog }, sched := sched }

end Sys2Proof.Machine
end

