-- ==== Sys2Proof/Machine/Assembler.lean ====
section
/-! DEFINITION. The text of host programs (30_encoding.md R99, R100): one statement a line, `;` starts a comment. What the text leaves open is in
log entry 9. -/

namespace Sys2Proof.Machine

/-- A number below 100 in decimal, without leading zeros. -/
def decimal2 (n : Nat) : List Char :=
  if n < 10 then [hexDigit n] else [hexDigit (n / 10), hexDigit (n % 10)]

/-- The name of a register (10_state.md R20); reserved offsets have none. -/
def regName : Reg → List Char
  | .ident => "ID".toList
  | .ctrl => "CTRL".toList
  | .status => "STATUS".toList
  | .cmd => "CMD".toList
  | .step => "STEP".toList
  | .keylen => "KEYLEN".toList
  | .timeLo => "TIME_LO".toList
  | .timeHi => "TIME_HI".toList
  | .counterLo => "COUNTER_LO".toList
  | .counterHi => "COUNTER_HI".toList
  | .offset => "OFFSET".toList
  | .header => "HEADER".toList
  | .result => "RESULT".toList
  | .codeLo => "CODE_LO".toList
  | .codeHi => "CODE_HI".toList
  | .digest1 i => "DIGEST1_".toList ++ decimal2 i.val
  | .digest2 i => "DIGEST2_".toList ++ decimal2 i.val
  | .key i => "KEY_".toList ++ decimal2 i.val
  | .reserved => []

/-- Every named register (R20). -/
def namedRegs : List Reg :=
  [.ident, .ctrl, .status, .cmd, .step, .keylen, .timeLo, .timeHi, .counterLo, .counterHi, .offset, .header, .result,
   .codeLo, .codeHi] ++
  (List.finRange 5).map .digest1 ++ (List.finRange 4).map .digest2 ++ (List.finRange 64).map .key

/-- Every command (R92). -/
def allInstrs : List Instr := [.cdiv, .hsha1, .hmd5, .trunc, .fmt, .derive, .totp, .zeroize]

/-- The register of a name. -/
def parseReg (t : List Char) : Option Reg := namedRegs.find? (fun r => regName r == t)

/-- The command of a mnemonic. -/
def parseMnemonic (t : List Char) : Option Instr := allInstrs.find? (fun i => i.mnemonic.toList == t)

/-- The value of a digit in a base of at most 16. -/
def digitValue (base : Nat) (c : Char) : Option Nat :=
  let n := c.toNat
  let v := if 0x30 ≤ n ∧ n ≤ 0x39 then n - 0x30
    else if 0x41 ≤ n ∧ n ≤ 0x46 then n - 0x41 + 10
    else if 0x61 ≤ n ∧ n ≤ 0x66 then n - 0x61 + 10
    else 16
  if v < base then some v else none

/-- The digits of a number after those already read. -/
def parseDigits (base : Nat) : (soFar : Nat) → List Char → Option Nat
  | n, [] => some n
  | n, c :: cs =>
    match digitValue base c with
    | some v => parseDigits base (base * n + v) cs
    | none => none

/-- A number: decimal, or hexadecimal after 0x (R99). -/
def parseNum : List Char → Option Nat
  | [] => none
  | '0' :: 'x' :: c :: cs => parseDigits 16 0 (c :: cs)
  | cs => parseDigits 10 0 cs

/-- A byte of LDKEY: one or two hexadecimal digits. -/
def parseByte : List Char → Option Nat
  | [a] => parseDigits 16 0 [a]
  | [a, b] => parseDigits 16 0 [a, b]
  | _ => none

/-- A host variable, `v<n>` (R99). -/
def parseVar : List Char → Option Nat
  | 'v' :: c :: cs => parseDigits 10 0 (c :: cs)
  | _ => none

/-- An immediate: a number, or a mnemonic standing for its word (R99). -/
def parseImm (t : List Char) : Option Imm :=
  match parseMnemonic t with
  | some i => some (.word i)
  | none => (parseNum t).map .num

/-- A 64-bit register of LD64 (R100). -/
def parseWide (t : List Char) : Option Wide :=
  if t = "TIME".toList then some .time else if t = "COUNTER".toList then some .counter else none

/-- A character that is a token by itself. -/
def isMark (c : Char) : Bool := c == ',' || c == '[' || c == ']' || c == ':'

/-- A character that separates tokens. The spec does not say which do; a space, a tab and a carriage return, so that lines may end in CR LF,
are the model's choice (log entry 9, DESIGN CHOICE). -/
def isBlank (c : Char) : Bool := c == ' ' || c == '\t' || c == '\r'

/-- A token that ends here, put before the tokens that follow it. -/
def endToken (cur : List Char) (rest : List (List Char)) : List (List Char) :=
  if cur.isEmpty then rest else cur :: rest

/-- The tokens of a line up to its comment, the first of them continuing `cur`. -/
def tokens : (cur : List Char) → List Char → List (List Char)
  | cur, [] => endToken cur []
  | cur, '-' :: '>' :: cs => endToken cur (['-', '>'] :: tokens [] cs)
  | cur, c :: cs =>
    if c == ';' then endToken cur []
    else if isBlank c then endToken cur (tokens [] cs)
    else if isMark c then endToken cur ([c] :: tokens [] cs)
    else tokens (cur ++ [c]) cs

/-- The statement of a line's tokens (R99, R100); none if the line is none of the forms. LD64's 64-bit immediate is a number only: R99 lets a
mnemonic stand as an immediate but speaks of 32-bit ones, and R100 leaves this open (log entry 9, DESIGN CHOICE). R99 does not say what may stand before the colon of a `label:` line: any single
token may (log entry 9, DESIGN CHOICE). -/
def parseTokens : List (List Char) → Option Stmt
  | [] => some .blank
  | [t] =>
    if t = "POLL".toList then some .poll
    else if t = "CLRST".toList then some .clrst
    else if t = "LDKEY".toList then some (.ldkey [])
    else none
  | [_, [':']] => some .label
  | [op, t] =>
    if op = "ISSUE".toList then (parseMnemonic t).map .issue
    else if op = "ISSUE.W".toList then (parseImm t).map .issueW
    else if op = "LDKEY".toList then (parseByte t).map (fun b => .ldkey [b])
    else none
  | op :: rest =>
    if op = "LDKEY".toList then (rest.mapM parseByte).map .ldkey
    else match rest with
    | [r, [','], v] =>
      if op = "WR".toList then (parseReg r).bind (fun r => (parseImm v).map (.wrReg r))
      else if op = "LD64".toList then (parseWide r).bind (fun r => (parseNum v).map (.ld64 r))
      else none
    | [r, ['-', '>'], v] =>
      if op = "RD".toList then (parseReg r).bind (fun r => (parseVar v).map (.rdReg r)) else none
    | [['['], a, [']'], [','], v] =>
      if op = "WR".toList then (parseNum a).bind (fun a => (parseImm v).map (.wrOff a)) else none
    | [['['], a, [']'], ['-', '>'], v] =>
      if op = "RD".toList then (parseNum a).bind (fun a => (parseVar v).map (.rdOff a)) else none
    | _ => none

/-- The statement of a line. -/
def parseLine (line : List Char) : Option Stmt := parseTokens (tokens [] line)

/-- The lines of a text, the first of them continuing `cur`. -/
def splitLines : (cur : List Char) → List Char → List (List Char)
  | cur, [] => [cur]
  | cur, c :: cs => if c == '\n' then cur :: splitLines [] cs else splitLines (cur ++ [c]) cs

/-- The statements of a host program's text (R99). -/
def parseProgram (text : List Char) : Option (List Stmt) := (splitLines [] text).mapM parseLine

end Sys2Proof.Machine
end

