-- ==== Sys2Proof/Safety.lean ====
section
/-! DEFINITION. What a sound state of the machine is, and the few terms the statements use: the invariants of 10_state.md R49, those of a
command in flight (R43, 30_encoding.md R97), and the registers each command writes (R93). -/

namespace Sys2Proof.Machine

/-- Character k of the code: the bytes of CODE_LO, then the two high bytes of CODE_HI (43_truncate_format.md R175). -/
def Block.codeChar (b : Block) (k : Nat) : Byte :=
  if k < 4 then b.codeLo.extractLsb' (24 - 8 * k) 8 else b.codeHi.extractLsb' (24 - 8 * (k - 4)) 8

/-- A byte is an ASCII digit (R174). -/
def isAsciiDigit (c : Byte) : Prop := 0x30 ≤ c.toNat ∧ c.toNat ≤ 0x39

/-- The six register invariants of 10_state.md R49, in its order. -/
structure RegisterInv (b : Block) : Prop where
  stepNonZero  : b.step ≠ 0
  offsetLegal  : b.offset = 0 ∨ b.offset = 1 ∨ b.offset = 4 ∨ b.offset = 5
  resultBound  : b.result.toNat ≤ 999999
  codeHiLow    : b.codeHi.extractLsb' 0 16 = 0
  codeForm     : (b.codeLo = 0 ∧ b.codeHi = 0) ∨ ∀ k < 6, isAsciiDigit (b.codeChar k)
  busyNoErr    : b.busy = true → b.err = false

/-- What holds of the flags and of a command in flight: one exactly while BUSY = 1 (R23), accepted with a legal KEYLEN (R96), its snapshot
still what the registers hold (R97), DONE and ERR never beside BUSY nor beside each other (R96, R98), and only the defined error
codes, never NONE beside ERR (60_exceptions.md R223, R221). -/
structure FlightInv (b : Block) : Prop where
  busyInflight : b.busy = b.inflight.isSome
  keylenLegal  : ∀ f, b.inflight = some f → readsKeylen f.op = true → f.snap.keylen.toNat ≤ 256
  snapHolds    : ∀ f, b.inflight = some f → f.snap = b.snapshot
  busyNotDone  : b.busy = true → b.done = false
  doneNotErr   : b.done = true → b.err = false
  errcodeLegal : b.errcode = 0 ∨ b.errcode = 1 ∨ b.errcode = 2
  errHasCode   : b.err = true → b.errcode ≠ 0

/-- The machine's invariant: the block's, and that a block held in reset stays at its reset values (70_reset_and_hazards.md R260). -/
structure MachineInv (s : State) : Prop where
  registers : RegisterInv s.blk
  flight    : FlightInv s.blk
  inReset   : s.rstN = false → s.blk = Block.reset

/-- The registers a command writes besides STATUS (30_encoding.md R93). -/
def writesReg : Instr → Reg → Bool
  | .cdiv, .counterLo | .cdiv, .counterHi => true
  | .hsha1, .digest1 _ => true
  | .hmd5, .digest2 _ => true
  | .trunc, .offset | .trunc, .header | .trunc, .result => true
  | .fmt, .codeLo | .fmt, .codeHi => true
  | .derive, .digest1 _ | .derive, .digest2 _ | .derive, .offset | .derive, .header | .derive, .result
  | .derive, .codeLo | .derive, .codeHi => true
  | .totp, .counterLo | .totp, .counterHi | .totp, .digest1 _ | .totp, .digest2 _ | .totp, .offset | .totp, .header
  | .totp, .result | .totp, .codeLo | .totp, .codeHi => true
  | .zeroize, .key _ | .zeroize, .keylen | .zeroize, .digest1 _ | .zeroize, .digest2 _ | .zeroize, .offset
  | .zeroize, .header | .zeroize, .result | .zeroize, .codeLo | .zeroize, .codeHi => true
  | _, _ => false

/-- A command reads nothing in which these two operand records differ (R93): of the key, only the bytes below KEYLEN
(10_state.md R41). -/
def sameReads (i : Instr) (o p : Operands) : Prop :=
  match i with
  | .cdiv => o.time = p.time ∧ o.step = p.step
  | .hsha1 | .derive => o.secret = p.secret ∧ o.counter = p.counter
  | .hmd5 => o.digest1 = p.digest1 ∧ o.counter = p.counter
  | .trunc => o.digest2 = p.digest2
  | .fmt => o.result = p.result
  | .totp => o.secret = p.secret ∧ o.time = p.time ∧ o.step = p.step
  | .zeroize => True

/-- `w[31:4] != 0`, or `w[3:0]` is 0x0, or 0x9 to 0xF (R94). -/
def illegalWord (w : Word) : Prop := w.toNat / 16 ≠ 0 ∨ w.toNat % 16 = 0 ∨ 9 ≤ w.toNat % 16

/-- An offset is a multiple of 4 (20_memory.md R61). -/
def wordOffset (a : BitVec 12) : Prop := a.toNat % 4 = 0

/-- The input offsets (R65). -/
def inputOffset (a : BitVec 12) : Prop :=
  wordOffset a ∧ ((0x00C ≤ a.toNat ∧ a.toNat ≤ 0x024) ∨ (0x100 ≤ a.toNat ∧ a.toNat ≤ 0x1FC))

/-- The reserved offsets (10_state.md R42). -/
def reservedOffset (a : BitVec 12) : Prop :=
  wordOffset a ∧ (a.toNat = 0x03C ∨ (0x054 ≤ a.toNat ∧ a.toNat ≤ 0x05C) ∨ (0x070 ≤ a.toNat ∧ a.toNat ≤ 0x0FC) ∨
    (0x200 ≤ a.toNat ∧ a.toNat ≤ 0xFFC))

/-- The offsets of the read-only registers (20_memory.md R64). -/
def readOnlyOffset (a : BitVec 12) : Prop :=
  wordOffset a ∧ (a.toNat = 0x000 ∨ (0x028 ≤ a.toNat ∧ a.toNat ≤ 0x038) ∨ (0x040 ≤ a.toNat ∧ a.toNat ≤ 0x050) ∨
    (0x060 ≤ a.toNat ∧ a.toNat ≤ 0x06C))

/-- The value of four bytes, most significant first. -/
def beValue (b0 b1 b2 b3 : Byte) : Nat := ((b0.toNat * 256 + b1.toNat) * 256 + b2.toNat) * 256 + b3.toNat

/-- `2^k` where a flag is 1. -/
def bitValue (f : Bool) (k : Nat) : Nat := if f then 2 ^ k else 0

/-- The state in which command `i` is in flight with operands `o`. -/
def State.withFlight (s : State) (i : Instr) (o : Operands) : State :=
  { s with blk := { s.blk with busy := true, inflight := some ⟨i, o⟩ } }

/-- The host about to write `w` to CMD, the engine to move right after it: the shortest whole run of a command (R96, R98). -/
def aboutToIssue (s : State) (w : Word) : State :=
  { s with host := { s.host with prog := [.wr 0x00C 0xF w] }, sched := [.host, .engine] }

/-- The host is the agent the next step moves: an event says so, or none is left and BUSY = 0 (log entry 2). -/
def hostMoves (s : State) : Prop := (s.sched = [] ∧ s.blk.busy = false) ∨ ∃ sc, s.sched = .host :: sc

/-- The engine is the agent the next step moves: an event says so, or none is left and BUSY = 1 (log entry 2). -/
def engineMoves (s : State) : Prop := (s.sched = [] ∧ s.blk.busy = true) ∨ ∃ sc, s.sched = .engine :: sc

/-- The next step is a reset. -/
def resetMoves (s : State) : Prop := ∃ sc, s.sched = .resetLow :: sc

/-- An interleaving of host transactions and engine completions alone. -/
def withoutReset (sc : List Event) : Prop := ∀ e ∈ sc, e = .host ∨ e = .engine

/-- `k` steps of the machine. -/
def run : (k : Nat) → State → Host.Outcome State Fault Refusal
  | 0, s => .next s
  | k + 1, s =>
    match step s with
    | .next t => run k t
    | .fault r => .fault r
    | .refused r => .refused r

end Sys2Proof.Machine
end

