-- ==== Sys2Proof/Certificates/Slice0/Obligations.lean ====
section
/-! DEFINITION. The statements about GAUTH-CORE, for the provers. Each docstring names the rule it formalises. -/

open Sys2Proof Sys2Proof.Machine

/-! ## Encoding -/

/-- Every word has one meaning, and every command one word (30_encoding.md R91, R92, R94). -/
def Obligations.DecodeAcceptsExactlyTheEncodings : Prop :=
  ∀ (w : Word) (i : Instr), decode w = .ok i ↔ w = encode i

/-- The words of the opcode map, and a few reserved ones, written out (R92, R94). -/
def Obligations.TabledWordsDecode : Prop :=
  decode 0x00000001 = .ok .cdiv ∧ decode 0x00000002 = .ok .hsha1 ∧ decode 0x00000003 = .ok .hmd5 ∧
  decode 0x00000004 = .ok .trunc ∧ decode 0x00000005 = .ok .fmt ∧ decode 0x00000006 = .ok .derive ∧
  decode 0x00000007 = .ok .totp ∧ decode 0x00000008 = .ok .zeroize ∧
  decode 0x00000000 = .error .opReserved ∧ decode 0x00000009 = .error .opReserved ∧
  decode 0x0000000F = .error .opReserved ∧ decode 0x80000006 = .error .rsvNonZero

/-- R94, R224: an illegal word written to CMD while BUSY = 0 changes CMD, DONE, ERR and ERRCODE only and stays readable; no other
word is rejected so. -/
def Obligations.IllegalWordIsRejected : Prop :=
  ∀ (b : Block) (w : Word), b.busy = false →
    (illegalWord w →
      b.memWrite 0x00C w = { b with cmd := w, done := false, err := true, errcode := 0x1 } ∧
      (b.memWrite 0x00C w).memRead 0x00C = w) ∧
    (¬ illegalWord w → (b.memWrite 0x00C w).errcode ≠ 0x1)

/-- The register map names each register at one offset, and each offset one register (10_state.md R20). -/
def Obligations.RegisterMapRoundTrip : Prop :=
  (∀ r : Reg, r.named = true → wordOffset r.toOffset ∧ Reg.ofOffset r.toOffset = r) ∧
  (∀ a : BitVec 12, wordOffset a → (Reg.ofOffset a).named = true → (Reg.ofOffset a).toOffset = a) ∧
  (∀ a : BitVec 12, wordOffset a → (Reg.ofOffset a = .reserved ↔ reservedOffset a))

/-- 30_encoding.md R101: a legal word disassembles to its mnemonic, any other to `.cmd 0x` and its 8 hexadecimal digits. That the digits are
capitals is the model's choice (log entry 9). -/
def Obligations.DisassemblyIsTotal : Prop :=
  ∀ w : Word,
    (¬ illegalWord w → ∃ i : Instr, w = encode i ∧ disassemble w = i.mnemonic) ∧
    (illegalWord w → disassemble w = ".cmd 0x" ++ String.ofList (hexDigits 8 w.toNat) ∧
      (hexDigits 8 w.toNat).length = 8 ∧ parseDigits 16 0 (hexDigits 8 w.toNat) = some w.toNat)

/-! ## Reset -/

/-- 10_state.md R48, 95_test_vectors.md RS1: what every offset reads right after reset, irq, and that no command is in flight. -/
def Obligations.ResetReadsTheListedValues : Prop :=
  State.reset.blk.memRead 0x000 = 0x484F5450 ∧ State.reset.blk.memRead 0x010 = 30 ∧
  (∀ a : BitVec 12, wordOffset a → a.toNat ≠ 0x000 → a.toNat ≠ 0x010 → State.reset.blk.memRead a = 0) ∧
  (∀ n (h : n < 256), State.reset.blk.key[n] = 0) ∧
  State.reset.blk.inflight = none ∧ State.reset.blk.irq = false

/-- 70_reset_and_hazards.md R260, R263: a reset discards the command in flight with all its effects, and everything else the block held. That
the host keeps its program and that rst_n stays low until an event of its own is the model's form of reset (log entry 14). -/
def Obligations.ResetAbandonsTheCommand : Prop :=
  ∀ (s : State) (sc : List Event), s.sched = .resetLow :: sc →
    ∃ t, step s = .next t ∧ t.blk.inflight = none ∧ t.blk.busy = false ∧ t.blk.done = false ∧
      t.blk.counter = 0 ∧ t.blk.offset = 0 ∧ t.blk.header = 0 ∧ t.blk.result = 0 ∧ t.blk.codeLo = 0 ∧ t.blk.codeHi = 0 ∧
      (∀ n (h : n < 20), t.blk.digest1[n] = 0) ∧ (∀ n (h : n < 16), t.blk.digest2[n] = 0) ∧
      (∀ n (h : n < 256), t.blk.key[n] = 0) ∧ t.blk = State.reset.blk ∧ t.host = s.host ∧ t.sched = sc ∧ t.rstN = false

/-- R260: while rst_n = 0 a transaction, read or write, completes with rdata = 0 and no effect, and the release of rst_n changes nothing else.
That rst_n is a level with events of its own is the model's form of reset (log entry 14). That the host goes on after
an illegal transaction is the model's choice (log entry 5). -/
def Obligations.TransactionsInResetHaveNoEffect : Prop :=
  ∀ (s : State) (sc : List Event), s.rstN = false →
    (s.sched = .host :: sc → ∃ t, step s = .next t ∧ t.blk = s.blk ∧ t.rstN = false ∧
      (∀ a v rest, s.host.prog = .rd a v :: rest →
        t.host.rdata = 0 ∧ t.host.vars = s.host.vars.set v 0 ∧ t.host.prog = rest) ∧
      (∀ a strb w rest, s.host.prog = .wr a strb w :: rest →
        t.host.rdata = 0 ∧ t.host.vars = s.host.vars ∧ t.host.prog = rest)) ∧
    (s.sched = .resetHigh :: sc → step s = .next { s with rstN := true, sched := sc })

/-! ## One step -/

/-- 30_encoding.md R98, 20_memory.md R73: the engine's step is `exec` of the command in flight while BUSY = 1, whether the interleaving says
so or, with none left, by default; while BUSY = 0 it is not enabled and changes nothing. -/
def Obligations.EngineStepRunsTheCommandInFlight : Prop :=
  ∀ (s : State) (sc : List Event),
    (∀ f, s.blk.busy = true → s.blk.inflight = some f →
      (s.sched = .engine :: sc → step s = exec f.op { s with sched := sc }) ∧ (s.sched = [] → step s = exec f.op s)) ∧
    (s.blk.busy = false → s.sched = .engine :: sc → step s = .next { s with sched := sc })

/-- Where `withFetchWord` puts a legal word: the next step is `exec` of the command it encodes, in flight with the registers as they
are (R96, R97). The place is the model's choice (log entry 1). -/
def Obligations.FetchWordIsRunNext : Prop :=
  ∀ (s : State) (i : Instr), (readsKeylen i = true → s.blk.keylen.toNat ≤ 256) →
    decodeTableWord 32 (encode i).toNat = some i ∧
    ∃ u, step (s.withFetchWord 32 (encode i).toNat) = exec i u ∧ u.blk.inflight = some ⟨i, s.blk.snapshot⟩ ∧
      u.host = s.host ∧ u.sched = s.sched

/-- 60_exceptions.md R220: no step stops the machine. That the host's fault of R227 stops nothing either is the model's choice (log entry 5). -/
def Obligations.NoStepStops : Prop := ∀ s : State, ∃ t, step s = .next t

/-- A whole command, from a CMD write to the idle block to its completion, is `exec` of the word's instruction on the registers as the
write found them (R96, R97, R98). That bus_rdata is kept across the
CMD write is the model's choice (log entry 4). -/
def Obligations.IssuedCommandRuns : Prop :=
  ∀ (s : State) (i : Instr), s.rstN = true → s.blk.busy = false → (readsKeylen i = true → s.blk.keylen.toNat ≤ 256) →
    ∃ t, run 2 (aboutToIssue s (encode i)) = .next t ∧
      exec i { s with
        blk := { s.blk with cmd := encode i, done := false, err := false, errcode := 0, busy := true,
                            inflight := some ⟨i, s.blk.snapshot⟩ },
        host := { s.host with prog := [], busErr := false }, sched := [] } = .next t

/-! ## The register window and the bus -/

/-- 20_memory.md R61: an illegal transaction answers bus_err = 1, reads 0 and changes no register; a legal one answers bus_err = 0 and has the effect
of the window's read or write. That the host goes on with its program after an illegal transaction is the model's choice, which R227 leaves to the
platform (log entry 5). -/
def Obligations.OnlyAlignedWholeWordsAreLegal : Prop :=
  ∀ (s : State) (sc : List Event) (rest : List HostOp) (a : BitVec 12), s.rstN = true → s.sched = .host :: sc →
    (∀ strb w, s.host.prog = .wr a strb w :: rest → ∃ t, step s = .next t ∧ t.host.prog = rest ∧ t.sched = sc ∧
      t.host.vars = s.host.vars ∧
      (wordOffset a ∧ strb = 0xF → t.host.busErr = false ∧ t.blk = s.blk.memWrite a w) ∧
      (¬ (wordOffset a ∧ strb = 0xF) → t.host.busErr = true ∧ t.blk = s.blk)) ∧
    (∀ v, s.host.prog = .rd a v :: rest → ∃ t, step s = .next t ∧ t.host.prog = rest ∧ t.sched = sc ∧ t.blk = s.blk ∧
      (wordOffset a → t.host.busErr = false ∧ t.host.vars = s.host.vars.set v (s.blk.memRead a)) ∧
      (¬ wordOffset a → t.host.busErr = true ∧ t.host.rdata = 0 ∧ t.host.vars = s.host.vars.set v 0))

/-- R62: what a read of each offset returns. -/
def Obligations.ReadReturnsTheRegister : Prop :=
  ∀ b : Block,
    b.memRead 0x000 = 0x484F5450 ∧
    (b.memRead 0x004).toNat = bitValue b.ctrlIe 0 ∧
    (b.memRead 0x008).toNat = b.errcode.toNat * 256 + bitValue b.werr 3 + bitValue b.err 2 + bitValue b.done 1 + bitValue b.busy 0 ∧
    b.memRead 0x00C = b.cmd ∧ b.memRead 0x010 = b.step ∧ b.memRead 0x014 = b.keylen ∧
    (b.memRead 0x018).toNat = b.time.toNat % 2 ^ 32 ∧ (b.memRead 0x01C).toNat = b.time.toNat / 2 ^ 32 ∧
    (b.memRead 0x020).toNat = b.counter.toNat % 2 ^ 32 ∧ (b.memRead 0x024).toNat = b.counter.toNat / 2 ^ 32 ∧
    (b.memRead 0x028).toNat = b.offset.toNat ∧ b.memRead 0x02C = b.header ∧ (b.memRead 0x030).toNat = b.result.toNat ∧
    b.memRead 0x034 = b.codeLo ∧ b.memRead 0x038 = b.codeHi ∧
    (∀ i (h : i < 5), (b.memRead (BitVec.ofNat 12 (0x040 + 4 * i))).toNat =
      beValue b.digest1[4 * i] b.digest1[4 * i + 1] b.digest1[4 * i + 2] b.digest1[4 * i + 3]) ∧
    (∀ i (h : i < 4), (b.memRead (BitVec.ofNat 12 (0x060 + 4 * i))).toNat =
      beValue b.digest2[4 * i] b.digest2[4 * i + 1] b.digest2[4 * i + 2] b.digest2[4 * i + 3]) ∧
    (∀ i < 64, b.memRead (BitVec.ofNat 12 (0x100 + 4 * i)) = 0) ∧
    (∀ a, reservedOffset a → b.memRead a = 0)

/-- R63 while BUSY = 0: what a write of CTRL, STEP, KEYLEN, either half of TIME or COUNTER, or a word of KEY does, and to nothing else. The
other writable registers are STATUS (StatusWriteClearsFlags) and CMD (IllegalWordIsRejected, KeylenRangeIsChecked,
AcceptanceTakesASnapshot). -/
def Obligations.WriteSetsItsRegister : Prop :=
  ∀ (b : Block) (v : Word), b.busy = false →
    b.memWrite 0x004 v = { b with ctrlIe := decide (v.toNat % 2 = 1) } ∧
    b.memWrite 0x010 v = (if v = 0 then b else { b with step := v }) ∧
    b.memWrite 0x014 v = { b with keylen := v } ∧
    b.memWrite 0x018 v = { b with time := BitVec.ofNat 64 (b.time.toNat / 2 ^ 32 * 2 ^ 32 + v.toNat) } ∧
    b.memWrite 0x01C v = { b with time := BitVec.ofNat 64 (v.toNat * 2 ^ 32 + b.time.toNat % 2 ^ 32) } ∧
    b.memWrite 0x020 v = { b with counter := BitVec.ofNat 64 (b.counter.toNat / 2 ^ 32 * 2 ^ 32 + v.toNat) } ∧
    b.memWrite 0x024 v = { b with counter := BitVec.ofNat 64 (v.toNat * 2 ^ 32 + b.counter.toNat % 2 ^ 32) } ∧
    (∀ i < 64, ∃ k : Vector Byte 256, b.memWrite (BitVec.ofNat 12 (0x100 + 4 * i)) v = { b with key := k } ∧
      ∀ n (h : n < 256), k[n] =
        if n / 4 = i then BitVec.ofNat 8 (v.toNat / 256 ^ (3 - n % 4)) else b.key[n])

/-- R65: a write to an input offset while BUSY = 1 only sets WERR, so its register keeps its value and no command starts; writes to CTRL
and STATUS are never dropped; and no write transaction at all changes an operand of the command in flight. -/
def Obligations.WritesWhileBusyAreDropped : Prop :=
  ∀ (b : Block) (a : BitVec 12) (v : Word), b.busy = true →
    (inputOffset a → b.memWrite a v = { b with werr := true }) ∧
    b.memWrite 0x004 v = { b with ctrlIe := decide (v.toNat % 2 = 1) } ∧
    b.memWrite 0x008 v = { b with done := b.done && !v[1], err := b.err && !v[2], werr := b.werr && !v[3] } ∧
    (∀ (n : Bool) (strb : BitVec 4), (busWrite n b a strb v).busy = true ∧ (busWrite n b a strb v).inflight = b.inflight ∧
      (busWrite n b a strb v).snapshot = b.snapshot)

/-- R64: a write to a read-only register or a reserved offset changes nothing, BUSY or not. -/
def Obligations.ReadOnlyAndReservedWritesAreIgnored : Prop :=
  ∀ (b : Block) (a : BitVec 12) (v : Word), (readOnlyOffset a ∨ reservedOffset a) → b.memWrite a v = b

/-- R66: a write of STATUS clears exactly the flags whose bit is 1, and changes nothing else, BUSY or not. -/
def Obligations.StatusWriteClearsFlags : Prop :=
  ∀ (b : Block) (v : Word), ∃ d e w : Bool,
    b.memWrite 0x008 v = { b with done := d, err := e, werr := w } ∧
    (d = true ↔ b.done = true ∧ v.toNat / 2 % 2 = 0) ∧ (e = true ↔ b.err = true ∧ v.toNat / 4 % 2 = 0) ∧
    (w = true ↔ b.werr = true ∧ v.toNat / 8 % 2 = 0)

/-- R67: STEP takes any value but 0. -/
def Obligations.StepWriteIsLegalized : Prop :=
  ∀ (b : Block) (v : Word), b.busy = false →
    (v ≠ 0 → b.memWrite 0x010 v = { b with step := v }) ∧ (v = 0 → b.memWrite 0x010 v = b)

/-- 10_state.md R21: ID reads its constant in every state and ignores writes. -/
def Obligations.IdentIsConstant : Prop :=
  ∀ (b : Block) (v : Word), b.memRead 0x000 = 0x484F5450 ∧ b.memWrite 0x000 v = b ∧ State.reset.blk.memRead 0x000 = 0x484F5450

/-- R228: the errors of a write transaction, in their order, and that a completion raises none. -/
def Obligations.ErrorsAreCheckedInOrder : Prop :=
  (∀ (b : Block) (a : BitVec 12) (strb : BitVec 4) (v : Word),
    (¬ (wordOffset a ∧ strb = 0xF) → busWrite true b a strb v = b) ∧
    (wordOffset a → strb = 0xF → b.busy = true → inputOffset a → busWrite true b a strb v = { b with werr := true }) ∧
    (a = 0x00C → strb = 0xF → b.busy = false → illegalWord v →
      busWrite true b a strb v = { b with cmd := v, done := false, err := true, errcode := 0x1 }) ∧
    (a = 0x00C → strb = 0xF → b.busy = false → (v = 0x2 ∨ v = 0x6 ∨ v = 0x7) → 256 < b.keylen.toNat →
      busWrite true b a strb v = { b with cmd := v, done := false, err := true, errcode := 0x2 })) ∧
  (∀ (i : Instr) (s t : State), exec i s = .next t →
    t.blk.err = s.blk.err ∧ t.blk.errcode = s.blk.errcode ∧ t.blk.werr = s.blk.werr)

/-- R225: HSHA1, DERIVE and TOTP are rejected exactly while KEYLEN > 256, and the other commands never are. -/
def Obligations.KeylenRangeIsChecked : Prop :=
  ∀ (b : Block) (i : Instr), b.busy = false →
    ((i = .hsha1 ∨ i = .derive ∨ i = .totp) → 256 < b.keylen.toNat →
      b.memWrite 0x00C (encode i) = { b with cmd := encode i, done := false, err := true, errcode := 0x2 }) ∧
    ((i = .cdiv ∨ i = .hmd5 ∨ i = .trunc ∨ i = .fmt ∨ i = .zeroize) ∨ b.keylen.toNat ≤ 256 →
      (b.memWrite 0x00C (encode i)).err = false ∧ (b.memWrite 0x00C (encode i)).errcode = 0x0 ∧
      (b.memWrite 0x00C (encode i)).busy = true)

/-- R96, R97: an accepted command is in flight with the values its registers hold; nothing else but CMD and the flags changes. That the record
holds all eight operand registers for every command, where R97 records those the command reads, is the model's choice (log
entry 3). -/
def Obligations.AcceptanceTakesASnapshot : Prop :=
  ∀ (b : Block) (i : Instr), b.busy = false → (readsKeylen i = true → b.keylen.toNat ≤ 256) →
    b.memWrite 0x00C (encode i) =
      { b with cmd := encode i, done := false, err := false, errcode := 0, busy := true,
               inflight := some ⟨i, { time := b.time, step := b.step, keylen := b.keylen, key := b.key, counter := b.counter,
                                      digest1 := b.digest1, digest2 := b.digest2, result := b.result }⟩ }

/-- R229: irq is the level CTRL.IE & (DONE | ERR). -/
def Obligations.InterruptLevel : Prop :=
  ∀ b : Block, b.irq = true ↔ (b.ctrlIe = true ∧ (b.done = true ∨ b.err = true))

/-- R230, R221: a completion or a rejection, by ILLEGAL_CMD or KEYLEN_RANGE, raises irq if it is enabled; a W1C write leaves it at what is still
pending, so clearing the one pending bit or both lowers it; an accepted command lowers it; a write of IE masks or shows what is
pending without changing it. -/
def Obligations.InterruptIsRaisedAndCleared : Prop :=
  (∀ (b : Block) (v : Word),
    (b.memWrite 0x004 v).irq = (decide (v.toNat % 2 = 1) && (b.done || b.err)) ∧
    (b.memWrite 0x004 v).done = b.done ∧ (b.memWrite 0x004 v).err = b.err ∧
    (b.memWrite 0x008 v).irq =
      (b.ctrlIe && ((b.done && decide (v.toNat / 2 % 2 = 0)) || (b.err && decide (v.toNat / 4 % 2 = 0)))) ∧
    (v.toNat / 2 % 4 = 3 → (b.memWrite 0x008 v).irq = false) ∧
    (b.done = true → b.err = false → v.toNat / 2 % 2 = 1 → (b.memWrite 0x008 v).irq = false) ∧
    (b.err = true → b.done = false → v.toNat / 4 % 2 = 1 → (b.memWrite 0x008 v).irq = false) ∧
    (b.busy = false → illegalWord v → (b.memWrite 0x00C v).irq = b.ctrlIe) ∧
    (b.busy = false → (v = 0x2 ∨ v = 0x6 ∨ v = 0x7) → 256 < b.keylen.toNat → (b.memWrite 0x00C v).irq = b.ctrlIe) ∧
    (b.busy = false → (b.memWrite 0x00C v).busy = false → (b.memWrite 0x00C v).irq = b.ctrlIe) ∧
    (b.busy = false → (b.memWrite 0x00C v).busy = true → (b.memWrite 0x00C v).irq = false)) ∧
  (∀ (i : Instr) (s t : State), exec i s = .next t → t.blk.irq = s.blk.ctrlIe) ∧
  State.reset.blk.irq = false

/-- R41, R233: no read returns anything of the key: two states that differ in the key alone answer the host alike. -/
def Obligations.KeyIsNeverRead : Prop :=
  ∀ (s : State) (k : Vector Byte 256) (sc : List Event), s.sched = .host :: sc →
    ∃ t u, step s = .next t ∧ step { s with blk := { s.blk with key := k } } = .next u ∧ u.host = t.host

/-- 20_memory.md R71, 00_scope.md R9: BASE is 4 KiB aligned, and the window is the 4096 addresses from it. -/
def Obligations.WindowIsAtBase : Prop :=
  Config.base % 4096 = 0 ∧ (∀ a : BitVec 12, windowOffset (busAddress a) = some a) ∧
  (∀ n : Nat, (∃ a, windowOffset n = some a) ↔ ∃ a, n = busAddress a)

/-! ## The commands -/

/-- R110: CDIV at completion, and that nothing but COUNTER and the completion's flags changes. The quotient by the STEP = 0 that no run
reaches (R111) is free. -/
def Obligations.CdivCompletes : Prop :=
  ∀ (s : State) (o : Operands), s.blk.inflight = some ⟨.cdiv, o⟩ →
    ∃ c : DWord, (o.step ≠ 0 → c.toNat = o.time.toNat / o.step.toNat) ∧
      exec .cdiv s = .next { s with blk := { s.blk with counter := c, inflight := none, busy := false, done := true } }

/-- R128, R126: HSHA1 at completion: DIGEST1 is the nested hash of the padded key and the counter; nothing else changes. -/
def Obligations.Hsha1Completes : Prop :=
  ∀ (s : State) (o : Operands), s.blk.inflight = some ⟨.hsha1, o⟩ →
    ∃ k0 : Vector Byte 64,
      (o.keylen.toNat ≤ 64 → ∀ n (h : n < 64), k0[n] = if n < o.keylen.toNat then o.key[n] else 0) ∧
      (64 < o.keylen.toNat → ∀ n (h : n < 64), k0[n] =
        if h' : n < 20 then (sha1 (o.key.toList.take o.keylen.toNat))[n] else 0) ∧
      exec .hsha1 s = .next { s with blk := { s.blk with
        digest1 := sha1 (k0.toList.map (· ^^^ 0x5C) ++ (sha1 (k0.toList.map (· ^^^ 0x36) ++ be64 o.counter)).toList),
        inflight := none, busy := false, done := true } }

/-- R158, R157: HMD5 at completion: the key is the 20 bytes of DIGEST1, never hashed; nothing but DIGEST2 changes. -/
def Obligations.Hmd5Completes : Prop :=
  ∀ (s : State) (o : Operands), s.blk.inflight = some ⟨.hmd5, o⟩ →
    ∃ k0 : Vector Byte 64, (∀ n (h : n < 64), k0[n] = if h' : n < 20 then o.digest1[n] else 0) ∧
      exec .hmd5 s = .next { s with blk := { s.blk with
        digest2 := md5 (k0.toList.map (· ^^^ 0x5C) ++ (md5 (k0.toList.map (· ^^^ 0x36) ++ be64 o.counter)).toList),
        inflight := none, busy := false, done := true } }

/-- R170: TRUNC at completion, in numbers. -/
def Obligations.TruncCompletes : Prop :=
  ∀ (s : State) (o : Operands), s.blk.inflight = some ⟨.trunc, o⟩ →
    ∃ (k : Nat) (hk : k + 3 < 16) (h : Nat),
      k = o.digest2[9].toNat &&& 5 ∧
      h = beValue o.digest2[k] o.digest2[k + 1] o.digest2[k + 2] o.digest2[k + 3] ∧
      exec .trunc s = .next { s with blk := { s.blk with
        offset := BitVec.ofNat 3 k, header := BitVec.ofNat 32 h, result := BitVec.ofNat 20 (h % 2 ^ 31 % 1000000),
        inflight := none, busy := false, done := true } }

/-- R173: FMT at completion: the six decimal digits of RESULT in ASCII, most significant first. -/
def Obligations.FmtCompletes : Prop :=
  ∀ (s : State) (o : Operands), s.blk.inflight = some ⟨.fmt, o⟩ →
    ∃ c : Nat → Nat, (∀ k < 6, c k = 0x30 + o.result.toNat / 10 ^ (5 - k) % 10) ∧
      exec .fmt s = .next { s with blk := { s.blk with
        codeLo := BitVec.ofNat 32 (c 0 * 2 ^ 24 + c 1 * 2 ^ 16 + c 2 * 2 ^ 8 + c 3),
        codeHi := BitVec.ofNat 32 (c 4 * 2 ^ 24 + c 5 * 2 ^ 16),
        inflight := none, busy := false, done := true } }

/-- R190: DERIVE at completion: all of steps 2 to 8 from one snapshot, written together; the MD5 key is the digest computed here. -/
def Obligations.DeriveCompletes : Prop :=
  ∀ (s : State) (o : Operands), s.blk.inflight = some ⟨.derive, o⟩ →
    ∃ (d1 : Vector Byte 20) (d2 : Vector Byte 16) (k : Nat) (hk : k + 3 < 16) (h r : Nat) (c : Nat → Nat),
      d1 = hmacSha1 (o.key.toList.take o.keylen.toNat) (be64 o.counter) ∧
      d2 = hmacMd5 d1.toList (be64 o.counter) ∧
      k = d2[9].toNat &&& 5 ∧ h = beValue d2[k] d2[k + 1] d2[k + 2] d2[k + 3] ∧ r = h % 2 ^ 31 % 1000000 ∧
      (∀ k < 6, c k = 0x30 + r / 10 ^ (5 - k) % 10) ∧
      exec .derive s = .next { s with blk := { s.blk with
        digest1 := d1, digest2 := d2, offset := BitVec.ofNat 3 k, header := BitVec.ofNat 32 h, result := BitVec.ofNat 20 r,
        codeLo := BitVec.ofNat 32 (c 0 * 2 ^ 24 + c 1 * 2 ^ 16 + c 2 * 2 ^ 8 + c 3),
        codeHi := BitVec.ofNat 32 (c 4 * 2 ^ 24 + c 5 * 2 ^ 16),
        inflight := none, busy := false, done := true } }

/-- R191: TOTP at completion: COUNTER is the quotient, and everything else is DERIVE's effect with that counter. -/
def Obligations.TotpCompletes : Prop :=
  ∀ (s : State) (o : Operands), s.blk.inflight = some ⟨.totp, o⟩ →
    ∃ (c : DWord) (t : State), (o.step ≠ 0 → c.toNat = o.time.toNat / o.step.toNat) ∧ exec .totp s = .next t ∧ t.blk.counter = c ∧
      exec .derive { s with blk := { s.blk with counter := c, inflight := some ⟨.derive, { o with counter := c }⟩ } } = .next t

/-- R192: ZEROIZE at completion: the key, KEYLEN and every derived register are 0; everything else, WERR and ERRCODE too, is kept. -/
def Obligations.ZeroizeCompletes : Prop :=
  ∀ (s : State) (o : Operands), s.blk.inflight = some ⟨.zeroize, o⟩ →
    ∃ (k : Vector Byte 256) (d1 : Vector Byte 20) (d2 : Vector Byte 16),
      (∀ n (h : n < 256), k[n] = 0) ∧ (∀ n (h : n < 20), d1[n] = 0) ∧ (∀ n (h : n < 16), d2[n] = 0) ∧
      exec .zeroize s = .next { s with blk := { s.blk with
        key := k, keylen := 0, digest1 := d1, digest2 := d2, offset := 0, header := 0, result := 0, codeLo := 0, codeHi := 0,
        inflight := none, busy := false, done := true } }

/-- R93, R98: a command writes its registers of the table and STATUS, and nothing else of the machine: every other offset reads as before,
and the key, which no read shows, is kept by every command but ZEROIZE. -/
def Obligations.CommandFrame : Prop :=
  ∀ (i : Instr) (s t : State), exec i s = .next t →
    (∀ a : BitVec 12, a ≠ 0x008 → writesReg i (Reg.ofOffset a) = false → t.blk.memRead a = s.blk.memRead a) ∧
    (i ≠ .zeroize → t.blk.key = s.blk.key) ∧
    t.blk.werr = s.blk.werr ∧ t.blk.err = s.blk.err ∧ t.blk.errcode = s.blk.errcode ∧
    t.blk.busy = false ∧ t.blk.done = true ∧ t.blk.inflight = none ∧
    t.host = s.host ∧ t.rstN = s.rstN ∧ t.sched = s.sched

/-- R93, R41: what a command does depends only on the registers it reads, and of the key only on the bytes below KEYLEN. -/
def Obligations.CommandReadsOnlyItsOperands : Prop :=
  ∀ (i : Instr) (s : State) (o p : Operands), sameReads i o p → exec i (s.withFlight i o) = exec i (s.withFlight i p)

/-- R111: the quotient is exact, never exceeds TIME, and STEP >= 1 makes it the floor of TIME / STEP. -/
def Obligations.DividerIsExact : Prop :=
  ∀ o : Operands, o.step ≠ 0 →
    (divideTime o).toNat * o.step.toNat ≤ o.time.toNat ∧
    o.time.toNat < ((divideTime o).toNat + 1) * o.step.toNat ∧ (divideTime o).toNat ≤ o.time.toNat

/-- R171: the offset keeps bits 2 and 0 of byte 9, so it is 0, 1, 4 or 5, the header is the four bytes from it, and byte 9 is never one
of them. -/
def Obligations.OffsetTakesFourValues : Prop :=
  ∀ d : Vector Byte 16,
    (offsetOf d).toNat = d[9].toNat &&& 5 ∧
    (d[9][2] = false → d[9][0] = false → (offsetOf d).toNat = 0) ∧
    (d[9][2] = false → d[9][0] = true → (offsetOf d).toNat = 1) ∧
    (d[9][2] = true → d[9][0] = false → (offsetOf d).toNat = 4) ∧
    (d[9][2] = true → d[9][0] = true → (offsetOf d).toNat = 5) ∧
    (offsetOf d).toNat + 3 ≤ 8 ∧
    (∀ k (h : k + 3 < 16), (offsetOf d).toNat = k → (headerAt d (offsetOf d)).toNat = beValue d[k] d[k + 1] d[k + 2] d[k + 3]) ∧
    (∀ c : Byte, headerAt (d.set 9 c) (offsetOf d) = headerAt d (offsetOf d))

/-- R172: the truncation's arithmetic, and that every result occurs. -/
def Obligations.TruncationArithmetic : Prop :=
  (∀ h : Word, (h &&& 0x7FFFFFFF).toNat = h.toNat % 2 ^ 31 ∧ (resultOf h).toNat = h.toNat % 2 ^ 31 % 1000000 ∧
    (resultOf h).toNat ≤ 999999) ∧
  (∀ r ≤ 999999, ∃ h : Word, (resultOf h).toNat = r)

/-- R174: the six characters are ASCII digits, and they are the decimal representation of the result. -/
def Obligations.DigitsAreDecimal : Prop :=
  ∀ r : BitVec 20, r.toNat ≤ 999999 →
    (∀ k < 6, 0x30 ≤ (digit r k).toNat ∧ (digit r k).toNat ≤ 0x39) ∧
    ((digit r 0).toNat - 0x30) * 100000 + ((digit r 1).toNat - 0x30) * 10000 + ((digit r 2).toNat - 0x30) * 1000 +
      ((digit r 3).toNat - 0x30) * 100 + ((digit r 4).toNat - 0x30) * 10 + ((digit r 5).toNat - 0x30) = r.toNat

/-- R127: the message is the counter's 8 bytes, most significant first. -/
def Obligations.CounterBytesAreBigEndian : Prop :=
  ∀ c : DWord, (counterBytes c).length = 8 ∧
    ∀ n < 8, ((counterBytes c).getD n 0).toNat = c.toNat / 256 ^ (7 - n) % 256

/-! ## The hash functions -/

/-- R120: SHA-1's padding is the least that fills 64-byte blocks, with a big-endian bit length, and each block's first 16 schedule words
are its bytes read big-endian; R122: the other 64 follow the recurrence. -/
def Obligations.Sha1MessageSchedule : Prop :=
  (∀ m : List Byte, m.length < 2 ^ 61 → ∃ z : Nat,
    pad1 m = m ++ [0x80] ++ List.replicate z 0 ++ be64 (BitVec.ofNat 64 (8 * m.length)) ∧
    (m.length + 1 + z + 8) % 64 = 0 ∧ (∀ y, (m.length + 1 + y + 8) % 64 = 0 → z ≤ y) ∧
    (blocks64 ((pad1 m).length / 64) (pad1 m)).flatten = pad1 m ∧
    ∀ x ∈ blocks64 ((pad1 m).length / 64) (pad1 m), x.length = 64) ∧
  (∀ x : Vector Byte 64, (sha1Schedule x.toList).length = 80 ∧
    (∀ t (h : t < 16), (sha1Schedule x.toList)[t]? = some (be32 x[4 * t] x[4 * t + 1] x[4 * t + 2] x[4 * t + 3])) ∧
    (∀ t, 16 ≤ t → t < 80 → ∃ a b c d, (sha1Schedule x.toList)[t - 3]? = some a ∧ (sha1Schedule x.toList)[t - 8]? = some b ∧
      (sha1Schedule x.toList)[t - 14]? = some c ∧ (sha1Schedule x.toList)[t - 16]? = some d ∧
      (sha1Schedule x.toList)[t]? = some (rotl32 (a ^^^ b ^^^ c ^^^ d) 1)))

/-- R150: MD5's padding is the same but for its length field, and its block words, which are little-endian. -/
def Obligations.Md5MessageWords : Prop :=
  (∀ m : List Byte, ∃ z : Nat,
    pad5 m = m ++ [0x80] ++ List.replicate z 0 ++ le64 (BitVec.ofNat 64 (8 * m.length)) ∧
    (m.length + 1 + z + 8) % 64 = 0 ∧ ∀ y, (m.length + 1 + y + 8) % 64 = 0 → z ≤ y) ∧
  (∀ x : Vector Byte 64, (wordsLE x.toList).length = 16 ∧
    ∀ t (h : t < 16), ((wordsLE x.toList).getD t 0).toNat = beValue x[4 * t + 3] x[4 * t + 2] x[4 * t + 1] x[4 * t])

/-- R126: a key longer than 64 bytes acts as its hash, and a shorter one as itself with zero bytes after it, for both hashes. -/
def Obligations.HmacKeyPreparation : Prop :=
  (∀ k m : List Byte, 64 < k.length →
    hmacSha1 k m = hmacSha1 (sha1 k).toList m ∧ hmacMd5 k m = hmacMd5 (md5 k).toList m) ∧
  (∀ (k m : List Byte) (n : Nat), k.length + n ≤ 64 →
    hmacSha1 (k ++ List.replicate n 0) m = hmacSha1 k m ∧ hmacMd5 (k ++ List.replicate n 0) m = hmacMd5 k m)

/-- R125, R156, R40: DIGEST1_i reads SHA-1's H_i, and DIGEST2_i the byte-reversed MD5 word. -/
def Obligations.DigestWordsReadTheHash : Prop :=
  (∀ h : Sha1Vars, digest1Word (sha1Output h) 0 = h.a ∧ digest1Word (sha1Output h) 1 = h.b ∧
    digest1Word (sha1Output h) 2 = h.c ∧ digest1Word (sha1Output h) 3 = h.d ∧ digest1Word (sha1Output h) 4 = h.e) ∧
  (∀ h : Md5Vars, ∀ p ∈ [(digest2Word (md5Output h) 0, h.a), (digest2Word (md5Output h) 1, h.b),
      (digest2Word (md5Output h) 2, h.c), (digest2Word (md5Output h) 3, h.d)],
    p.1.toNat = p.2.toNat % 256 * 2 ^ 24 + p.2.toNat / 2 ^ 8 % 256 * 2 ^ 16 + p.2.toNat / 2 ^ 16 % 256 * 2 ^ 8 + p.2.toNat / 2 ^ 24)

/-- 95_test_vectors.md section 3: published values of SHA-1 and MD5, as the words of their chaining values. -/
def Obligations.ReferenceHashVectors : Prop :=
  sha1Hash [0x61, 0x62, 0x63] = ⟨0xA9993E36, 0x4706816A, 0xBA3E2571, 0x7850C26C, 0x9CD0D89D⟩ ∧
  (List.finRange 4).map (digest2Word (md5 [0x61, 0x62, 0x63])) = [0x90015098, 0x3CD24FB0, 0xD6963F7D, 0x28E17F72]

/-! ## Whole-machine rules -/

/-- R195: from an idle block, `HSHA1; HMD5; TRUNC; FMT`, each polled, ends as DERIVE does, in every register but CMD, which holds the last
word written (log entry 13), whenever the completions fall. That the run goes on past the end of an interleaving is the model's
default (log entry 2). -/
def Obligations.DeriveEqualsItsStages : Prop :=
  ∀ (s : State) (sc sd : List Event), withoutReset sc → withoutReset sd →
    s.rstN = true → s.blk.busy = false → s.blk.keylen.toNat ≤ 256 →
    ∃ j k t u, run j (s.load ([Stmt.issue .hsha1, .poll, .issue .hmd5, .poll, .issue .trunc, .poll, .issue .fmt, .poll].flatMap expand) sc)
        = .next t ∧
      run k (s.load ([Stmt.issue .derive, .poll].flatMap expand) sd) = .next u ∧
      t.host.prog = [] ∧ u.host.prog = [] ∧ u.blk.busy = false ∧ u.blk.done = true ∧ t.blk = { u.blk with cmd := 0x5 }

/-- R195: from an idle block, `CDIV; DERIVE`, each polled, ends as TOTP does, in every register but CMD (log entry 13), whenever the completions
fall. That the run goes on past the end of an interleaving is the model's default (log entry 2). -/
def Obligations.TotpEqualsCdivThenDerive : Prop :=
  ∀ (s : State) (sc sd : List Event), withoutReset sc → withoutReset sd →
    s.rstN = true → s.blk.busy = false → s.blk.keylen.toNat ≤ 256 →
    ∃ j k t u, run j (s.load ([Stmt.issue .cdiv, .poll, .issue .derive, .poll].flatMap expand) sc) = .next t ∧
      run k (s.load ([Stmt.issue .totp, .poll].flatMap expand) sd) = .next u ∧
      t.host.prog = [] ∧ u.host.prog = [] ∧ u.blk.busy = false ∧ u.blk.done = true ∧ t.blk = { u.blk with cmd := 0x6 }

/-- R49, R97: the invariant holds right after reset. -/
def Obligations.InvAtReset : Prop := MachineInv State.reset

/-- R49, R97, R23, R25: every step keeps the invariant: STEP is not 0, OFFSET, RESULT and CODE stay in their ranges, a command is in flight
exactly while BUSY = 1, with ERR and DONE 0 and its operand registers as its snapshot holds them. -/
def Obligations.StepKeepsInv : Prop := ∀ s t : State, MachineInv s → step s = .next t → MachineInv t

/-- R98, 70_reset_and_hazards.md R272: a command in flight completes or is reset within one step more than the interleaving has left. That
the engine moves when none is left is the model's form of weak fairness (log entry 2). -/
def Obligations.CommandInFlightCompletes : Prop :=
  ∀ s : State, MachineInv s → s.blk.busy = true →
    ∃ k t, k ≤ s.sched.length + 1 ∧ run k s = .next t ∧ t.blk.busy = false

/-- 30_encoding.md R100: POLL repeats while BUSY = 1 and goes on at the first read that finds BUSY = 0, with that STATUS in v15. -/
def Obligations.PollWaitsForIdle : Prop :=
  ∀ (s : State) (rest : List HostOp) (sc : List Event), s.rstN = true → s.host.prog = .poll :: rest → s.sched = .host :: sc →
    ∃ t, step s = .next t ∧ t.blk = s.blk ∧ t.host.vars = s.host.vars.set 15 (s.blk.memRead 0x008) ∧
      (s.blk.busy = true → t.host.prog = .poll :: rest) ∧ (s.blk.busy = false → t.host.prog = rest)

/-- R65, R75, R226: no host transaction changes the command in flight, its operands or any result before its completion. -/
def Obligations.HostCannotDisturbACommand : Prop :=
  ∀ (s : State) (sc : List Event), MachineInv s → s.blk.busy = true → s.sched = .host :: sc →
    ∃ t, step s = .next t ∧ t.blk.busy = true ∧ t.blk.inflight = s.blk.inflight ∧ t.blk.snapshot = s.blk.snapshot ∧
      t.blk.cmd = s.blk.cmd ∧ t.blk.offset = s.blk.offset ∧ t.blk.header = s.blk.header ∧
      t.blk.codeLo = s.blk.codeLo ∧ t.blk.codeHi = s.blk.codeHi

/-- 93_implementation_defined.md U9, 95_test_vectors.md P3: a write of COUNTER_LO racing a DERIVE is dropped before the completion and lands
after it, and either way every result is that of the counter at acceptance, and nothing else differs but WERR and COUNTER. -/
def Obligations.RacingCounterWrite : Prop :=
  ∀ (s : State) (w : Word) (o : Operands), s.rstN = true → s.blk.busy = true → s.blk.inflight = some ⟨.derive, o⟩ →
    s.host.prog = [.wr 0x020 0xF w] →
    ∃ (t u : State) (d1 : Vector Byte 20) (d2 : Vector Byte 16) (k : Nat) (hk : k + 3 < 16) (h r : Nat) (c : Nat → Nat),
      run 2 { s with sched := [.host, .engine] } = .next t ∧ run 2 { s with sched := [.engine, .host] } = .next u ∧
      d1 = hmacSha1 (o.key.toList.take o.keylen.toNat) (be64 o.counter) ∧
      d2 = hmacMd5 d1.toList (be64 o.counter) ∧
      k = d2[9].toNat &&& 5 ∧ h = beValue d2[k] d2[k + 1] d2[k + 2] d2[k + 3] ∧ r = h % 2 ^ 31 % 1000000 ∧
      (∀ k < 6, c k = 0x30 + r / 10 ^ (5 - k) % 10) ∧
      t.blk = { s.blk with
        werr := true,
        digest1 := d1, digest2 := d2, offset := BitVec.ofNat 3 k, header := BitVec.ofNat 32 h, result := BitVec.ofNat 20 r,
        codeLo := BitVec.ofNat 32 (c 0 * 2 ^ 24 + c 1 * 2 ^ 16 + c 2 * 2 ^ 8 + c 3),
        codeHi := BitVec.ofNat 32 (c 4 * 2 ^ 24 + c 5 * 2 ^ 16),
        inflight := none, busy := false, done := true } ∧
      u.blk = { t.blk with
        werr := s.blk.werr, counter := BitVec.ofNat 64 (s.blk.counter.toNat / 2 ^ 32 * 2 ^ 32 + w.toNat) }

/-- R23: BUSY rises only in a host write of a CMD word to the idle block, and falls only in the engine's step or a reset. Who moves
when no interleaving is left is the model's default (log entry 2). -/
def Obligations.BusyChangesOnlySo : Prop :=
  ∀ s t : State, MachineInv s → step s = .next t →
    (s.blk.busy = false → t.blk.busy = true →
      hostMoves s ∧ ∃ w rest i, s.host.prog = .wr 0x00C 0xF w :: rest ∧ decode w = .ok i ∧
        t.blk.inflight = some ⟨i, s.blk.snapshot⟩) ∧
    (s.blk.busy = true → t.blk.busy = false → engineMoves s ∨ resetMoves s)

/-- R26: WERR, once 1, falls only when the host moves and writes STATUS with bit 3 = 1, or in a reset. Who moves when no interleaving is left
is the model's default (log entry 2). -/
def Obligations.WriteErrorIsSticky : Prop :=
  ∀ s t : State, step s = .next t → s.blk.werr = true → t.blk.werr = false →
    resetMoves s ∨ (hostMoves s ∧ ∃ w rest, s.host.prog = .wr 0x008 0xF w :: rest ∧ w.toNat / 8 % 2 = 1)

/-- 10_state.md R31, 30_encoding.md R93: KEYLEN changes only when the host moves and writes it to the idle block, when the engine moves
and completes ZEROIZE, or in a reset. Who moves when no interleaving is left is the model's default (log entry 2). -/
def Obligations.KeylenChangesOnlySo : Prop :=
  ∀ s t : State, MachineInv s → step s = .next t → t.blk.keylen ≠ s.blk.keylen →
    resetMoves s ∨
    (hostMoves s ∧ s.blk.busy = false ∧ ∃ rest, s.host.prog = .wr 0x014 0xF t.blk.keylen :: rest) ∨
    (engineMoves s ∧ t.blk.keylen = 0 ∧ ∃ o, s.blk.inflight = some ⟨.zeroize, o⟩)

/-! ## Host programs -/

/-- R100: LDKEY on an idle block, with no interleaving left to follow (log entry 2), leaves KEYLEN at the number of bytes and the secret
equal to them. -/
def Obligations.LdkeyLoadsTheSecret : Prop :=
  ∀ (s : State) (bytes : List Nat), s.rstN = true → s.blk.busy = false → (Stmt.ldkey bytes).wf = true →
    ∃ t, run (expand (.ldkey bytes)).length (s.load (expand (.ldkey bytes)) []) = .next t ∧ t.host.prog = [] ∧
      t.blk.keylen.toNat = bytes.length ∧ t.blk.snapshot.secret = bytes.map (BitVec.ofNat 8)

/-- R100, R68: LD64 on an idle block, with no interleaving left to follow (log entry 2), sets both halves of its register and nothing else
of the block. -/
def Obligations.Ld64LoadsBothHalves : Prop :=
  ∀ (s : State) (v : Nat), s.rstN = true → s.blk.busy = false → v < 2 ^ 64 →
    (∃ t, run 2 (s.load (expand (.ld64 .time v)) []) = .next t ∧ t.host.prog = [] ∧
      t.blk = { s.blk with time := BitVec.ofNat 64 v }) ∧
    (∃ t, run 2 (s.load (expand (.ld64 .counter v)) []) = .next t ∧ t.host.prog = [] ∧
      t.blk = { s.blk with counter := BitVec.ofNat 64 v })
end

