-- ==== Sys2Proof/Laws/State.lean ====
section
/-! SUPPORT. What each named update of the state does to each field: one lemma a field, true by rfl, so that no proof unfolds a record
update. -/

namespace Sys2Proof.Machine

/-! ## `raise` (60_exceptions.md R221) -/

section
variable (b : Block) (c : BitVec 4)
@[simp] theorem Block.raise_ctrlIe : (b.raise c).ctrlIe = b.ctrlIe := rfl
@[simp] theorem Block.raise_busy : (b.raise c).busy = b.busy := rfl
@[simp] theorem Block.raise_done : (b.raise c).done = b.done := rfl
@[simp] theorem Block.raise_err : (b.raise c).err = true := rfl
@[simp] theorem Block.raise_werr : (b.raise c).werr = b.werr := rfl
@[simp] theorem Block.raise_errcode : (b.raise c).errcode = c := rfl
@[simp] theorem Block.raise_cmd : (b.raise c).cmd = b.cmd := rfl
@[simp] theorem Block.raise_step : (b.raise c).step = b.step := rfl
@[simp] theorem Block.raise_keylen : (b.raise c).keylen = b.keylen := rfl
@[simp] theorem Block.raise_time : (b.raise c).time = b.time := rfl
@[simp] theorem Block.raise_counter : (b.raise c).counter = b.counter := rfl
@[simp] theorem Block.raise_offset : (b.raise c).offset = b.offset := rfl
@[simp] theorem Block.raise_header : (b.raise c).header = b.header := rfl
@[simp] theorem Block.raise_result : (b.raise c).result = b.result := rfl
@[simp] theorem Block.raise_codeLo : (b.raise c).codeLo = b.codeLo := rfl
@[simp] theorem Block.raise_codeHi : (b.raise c).codeHi = b.codeHi := rfl
@[simp] theorem Block.raise_digest1 : (b.raise c).digest1 = b.digest1 := rfl
@[simp] theorem Block.raise_digest2 : (b.raise c).digest2 = b.digest2 := rfl
@[simp] theorem Block.raise_key : (b.raise c).key = b.key := rfl
@[simp] theorem Block.raise_inflight : (b.raise c).inflight = b.inflight := rfl
end

/-! ## Clearing for an acceptance attempt (30_encoding.md R96) -/

section
variable (b : Block)
@[simp] theorem Block.clearForAccept_ctrlIe : b.clearForAccept.ctrlIe = b.ctrlIe := rfl
@[simp] theorem Block.clearForAccept_busy : b.clearForAccept.busy = b.busy := rfl
@[simp] theorem Block.clearForAccept_done : b.clearForAccept.done = false := rfl
@[simp] theorem Block.clearForAccept_err : b.clearForAccept.err = false := rfl
@[simp] theorem Block.clearForAccept_werr : b.clearForAccept.werr = b.werr := rfl
@[simp] theorem Block.clearForAccept_errcode : b.clearForAccept.errcode = 0 := rfl
@[simp] theorem Block.clearForAccept_cmd : b.clearForAccept.cmd = b.cmd := rfl
@[simp] theorem Block.clearForAccept_step : b.clearForAccept.step = b.step := rfl
@[simp] theorem Block.clearForAccept_keylen : b.clearForAccept.keylen = b.keylen := rfl
@[simp] theorem Block.clearForAccept_time : b.clearForAccept.time = b.time := rfl
@[simp] theorem Block.clearForAccept_counter : b.clearForAccept.counter = b.counter := rfl
@[simp] theorem Block.clearForAccept_offset : b.clearForAccept.offset = b.offset := rfl
@[simp] theorem Block.clearForAccept_header : b.clearForAccept.header = b.header := rfl
@[simp] theorem Block.clearForAccept_result : b.clearForAccept.result = b.result := rfl
@[simp] theorem Block.clearForAccept_codeLo : b.clearForAccept.codeLo = b.codeLo := rfl
@[simp] theorem Block.clearForAccept_codeHi : b.clearForAccept.codeHi = b.codeHi := rfl
@[simp] theorem Block.clearForAccept_digest1 : b.clearForAccept.digest1 = b.digest1 := rfl
@[simp] theorem Block.clearForAccept_digest2 : b.clearForAccept.digest2 = b.digest2 := rfl
@[simp] theorem Block.clearForAccept_key : b.clearForAccept.key = b.key := rfl
@[simp] theorem Block.clearForAccept_inflight : b.clearForAccept.inflight = b.inflight := rfl
end

/-! ## Starting a command (R96) -/

section
variable (b : Block) (i : Instr)
@[simp] theorem Block.start_ctrlIe : (b.start i).ctrlIe = b.ctrlIe := rfl
@[simp] theorem Block.start_busy : (b.start i).busy = true := rfl
@[simp] theorem Block.start_done : (b.start i).done = b.done := rfl
@[simp] theorem Block.start_err : (b.start i).err = b.err := rfl
@[simp] theorem Block.start_werr : (b.start i).werr = b.werr := rfl
@[simp] theorem Block.start_errcode : (b.start i).errcode = b.errcode := rfl
@[simp] theorem Block.start_cmd : (b.start i).cmd = b.cmd := rfl
@[simp] theorem Block.start_step : (b.start i).step = b.step := rfl
@[simp] theorem Block.start_keylen : (b.start i).keylen = b.keylen := rfl
@[simp] theorem Block.start_time : (b.start i).time = b.time := rfl
@[simp] theorem Block.start_counter : (b.start i).counter = b.counter := rfl
@[simp] theorem Block.start_offset : (b.start i).offset = b.offset := rfl
@[simp] theorem Block.start_header : (b.start i).header = b.header := rfl
@[simp] theorem Block.start_result : (b.start i).result = b.result := rfl
@[simp] theorem Block.start_codeLo : (b.start i).codeLo = b.codeLo := rfl
@[simp] theorem Block.start_codeHi : (b.start i).codeHi = b.codeHi := rfl
@[simp] theorem Block.start_digest1 : (b.start i).digest1 = b.digest1 := rfl
@[simp] theorem Block.start_digest2 : (b.start i).digest2 = b.digest2 := rfl
@[simp] theorem Block.start_key : (b.start i).key = b.key := rfl
@[simp] theorem Block.start_inflight : (b.start i).inflight = some ⟨i, b.snapshot⟩ := rfl
end

/-! ## A dropped write (20_memory.md R65) -/

section
variable (b : Block)
@[simp] theorem Block.dropWrite_ctrlIe : b.dropWrite.ctrlIe = b.ctrlIe := rfl
@[simp] theorem Block.dropWrite_busy : b.dropWrite.busy = b.busy := rfl
@[simp] theorem Block.dropWrite_done : b.dropWrite.done = b.done := rfl
@[simp] theorem Block.dropWrite_err : b.dropWrite.err = b.err := rfl
@[simp] theorem Block.dropWrite_werr : b.dropWrite.werr = true := rfl
@[simp] theorem Block.dropWrite_errcode : b.dropWrite.errcode = b.errcode := rfl
@[simp] theorem Block.dropWrite_cmd : b.dropWrite.cmd = b.cmd := rfl
@[simp] theorem Block.dropWrite_step : b.dropWrite.step = b.step := rfl
@[simp] theorem Block.dropWrite_keylen : b.dropWrite.keylen = b.keylen := rfl
@[simp] theorem Block.dropWrite_time : b.dropWrite.time = b.time := rfl
@[simp] theorem Block.dropWrite_counter : b.dropWrite.counter = b.counter := rfl
@[simp] theorem Block.dropWrite_offset : b.dropWrite.offset = b.offset := rfl
@[simp] theorem Block.dropWrite_header : b.dropWrite.header = b.header := rfl
@[simp] theorem Block.dropWrite_result : b.dropWrite.result = b.result := rfl
@[simp] theorem Block.dropWrite_codeLo : b.dropWrite.codeLo = b.codeLo := rfl
@[simp] theorem Block.dropWrite_codeHi : b.dropWrite.codeHi = b.codeHi := rfl
@[simp] theorem Block.dropWrite_digest1 : b.dropWrite.digest1 = b.digest1 := rfl
@[simp] theorem Block.dropWrite_digest2 : b.dropWrite.digest2 = b.digest2 := rfl
@[simp] theorem Block.dropWrite_key : b.dropWrite.key = b.key := rfl
@[simp] theorem Block.dropWrite_inflight : b.dropWrite.inflight = b.inflight := rfl
end

/-! ## A STATUS write (R66) -/

section
variable (b : Block) (v : Word)
@[simp] theorem Block.w1c_ctrlIe : (b.w1c v).ctrlIe = b.ctrlIe := rfl
@[simp] theorem Block.w1c_busy : (b.w1c v).busy = b.busy := rfl
@[simp] theorem Block.w1c_done : (b.w1c v).done = (b.done && !v[1]) := rfl
@[simp] theorem Block.w1c_err : (b.w1c v).err = (b.err && !v[2]) := rfl
@[simp] theorem Block.w1c_werr : (b.w1c v).werr = (b.werr && !v[3]) := rfl
@[simp] theorem Block.w1c_errcode : (b.w1c v).errcode = b.errcode := rfl
@[simp] theorem Block.w1c_cmd : (b.w1c v).cmd = b.cmd := rfl
@[simp] theorem Block.w1c_step : (b.w1c v).step = b.step := rfl
@[simp] theorem Block.w1c_keylen : (b.w1c v).keylen = b.keylen := rfl
@[simp] theorem Block.w1c_time : (b.w1c v).time = b.time := rfl
@[simp] theorem Block.w1c_counter : (b.w1c v).counter = b.counter := rfl
@[simp] theorem Block.w1c_offset : (b.w1c v).offset = b.offset := rfl
@[simp] theorem Block.w1c_header : (b.w1c v).header = b.header := rfl
@[simp] theorem Block.w1c_result : (b.w1c v).result = b.result := rfl
@[simp] theorem Block.w1c_codeLo : (b.w1c v).codeLo = b.codeLo := rfl
@[simp] theorem Block.w1c_codeHi : (b.w1c v).codeHi = b.codeHi := rfl
@[simp] theorem Block.w1c_digest1 : (b.w1c v).digest1 = b.digest1 := rfl
@[simp] theorem Block.w1c_digest2 : (b.w1c v).digest2 = b.digest2 := rfl
@[simp] theorem Block.w1c_key : (b.w1c v).key = b.key := rfl
@[simp] theorem Block.w1c_inflight : (b.w1c v).inflight = b.inflight := rfl
end

/-! ## The flags of a completion (R98) -/

section
variable (b : Block)
@[simp] theorem Block.finish_ctrlIe : b.finish.ctrlIe = b.ctrlIe := rfl
@[simp] theorem Block.finish_busy : b.finish.busy = false := rfl
@[simp] theorem Block.finish_done : b.finish.done = true := rfl
@[simp] theorem Block.finish_err : b.finish.err = b.err := rfl
@[simp] theorem Block.finish_werr : b.finish.werr = b.werr := rfl
@[simp] theorem Block.finish_errcode : b.finish.errcode = b.errcode := rfl
@[simp] theorem Block.finish_cmd : b.finish.cmd = b.cmd := rfl
@[simp] theorem Block.finish_step : b.finish.step = b.step := rfl
@[simp] theorem Block.finish_keylen : b.finish.keylen = b.keylen := rfl
@[simp] theorem Block.finish_time : b.finish.time = b.time := rfl
@[simp] theorem Block.finish_counter : b.finish.counter = b.counter := rfl
@[simp] theorem Block.finish_offset : b.finish.offset = b.offset := rfl
@[simp] theorem Block.finish_header : b.finish.header = b.header := rfl
@[simp] theorem Block.finish_result : b.finish.result = b.result := rfl
@[simp] theorem Block.finish_codeLo : b.finish.codeLo = b.codeLo := rfl
@[simp] theorem Block.finish_codeHi : b.finish.codeHi = b.codeHi := rfl
@[simp] theorem Block.finish_digest1 : b.finish.digest1 = b.digest1 := rfl
@[simp] theorem Block.finish_digest2 : b.finish.digest2 = b.digest2 := rfl
@[simp] theorem Block.finish_key : b.finish.key = b.key := rfl
@[simp] theorem Block.finish_inflight : b.finish.inflight = none := rfl
end

/-! ## Writing COUNTER (10_state.md R33) -/

section
variable (b : Block) (c : DWord)
@[simp] theorem Block.setCounter_ctrlIe : (b.setCounter c).ctrlIe = b.ctrlIe := rfl
@[simp] theorem Block.setCounter_busy : (b.setCounter c).busy = b.busy := rfl
@[simp] theorem Block.setCounter_done : (b.setCounter c).done = b.done := rfl
@[simp] theorem Block.setCounter_err : (b.setCounter c).err = b.err := rfl
@[simp] theorem Block.setCounter_werr : (b.setCounter c).werr = b.werr := rfl
@[simp] theorem Block.setCounter_errcode : (b.setCounter c).errcode = b.errcode := rfl
@[simp] theorem Block.setCounter_cmd : (b.setCounter c).cmd = b.cmd := rfl
@[simp] theorem Block.setCounter_step : (b.setCounter c).step = b.step := rfl
@[simp] theorem Block.setCounter_keylen : (b.setCounter c).keylen = b.keylen := rfl
@[simp] theorem Block.setCounter_time : (b.setCounter c).time = b.time := rfl
@[simp] theorem Block.setCounter_counter : (b.setCounter c).counter = c := rfl
@[simp] theorem Block.setCounter_offset : (b.setCounter c).offset = b.offset := rfl
@[simp] theorem Block.setCounter_header : (b.setCounter c).header = b.header := rfl
@[simp] theorem Block.setCounter_result : (b.setCounter c).result = b.result := rfl
@[simp] theorem Block.setCounter_codeLo : (b.setCounter c).codeLo = b.codeLo := rfl
@[simp] theorem Block.setCounter_codeHi : (b.setCounter c).codeHi = b.codeHi := rfl
@[simp] theorem Block.setCounter_digest1 : (b.setCounter c).digest1 = b.digest1 := rfl
@[simp] theorem Block.setCounter_digest2 : (b.setCounter c).digest2 = b.digest2 := rfl
@[simp] theorem Block.setCounter_key : (b.setCounter c).key = b.key := rfl
@[simp] theorem Block.setCounter_inflight : (b.setCounter c).inflight = b.inflight := rfl
end

/-! ## Writing DIGEST1 (R38) -/

section
variable (b : Block) (d : Vector Byte 20)
@[simp] theorem Block.setDigest1_ctrlIe : (b.setDigest1 d).ctrlIe = b.ctrlIe := rfl
@[simp] theorem Block.setDigest1_busy : (b.setDigest1 d).busy = b.busy := rfl
@[simp] theorem Block.setDigest1_done : (b.setDigest1 d).done = b.done := rfl
@[simp] theorem Block.setDigest1_err : (b.setDigest1 d).err = b.err := rfl
@[simp] theorem Block.setDigest1_werr : (b.setDigest1 d).werr = b.werr := rfl
@[simp] theorem Block.setDigest1_errcode : (b.setDigest1 d).errcode = b.errcode := rfl
@[simp] theorem Block.setDigest1_cmd : (b.setDigest1 d).cmd = b.cmd := rfl
@[simp] theorem Block.setDigest1_step : (b.setDigest1 d).step = b.step := rfl
@[simp] theorem Block.setDigest1_keylen : (b.setDigest1 d).keylen = b.keylen := rfl
@[simp] theorem Block.setDigest1_time : (b.setDigest1 d).time = b.time := rfl
@[simp] theorem Block.setDigest1_counter : (b.setDigest1 d).counter = b.counter := rfl
@[simp] theorem Block.setDigest1_offset : (b.setDigest1 d).offset = b.offset := rfl
@[simp] theorem Block.setDigest1_header : (b.setDigest1 d).header = b.header := rfl
@[simp] theorem Block.setDigest1_result : (b.setDigest1 d).result = b.result := rfl
@[simp] theorem Block.setDigest1_codeLo : (b.setDigest1 d).codeLo = b.codeLo := rfl
@[simp] theorem Block.setDigest1_codeHi : (b.setDigest1 d).codeHi = b.codeHi := rfl
@[simp] theorem Block.setDigest1_digest1 : (b.setDigest1 d).digest1 = d := rfl
@[simp] theorem Block.setDigest1_digest2 : (b.setDigest1 d).digest2 = b.digest2 := rfl
@[simp] theorem Block.setDigest1_key : (b.setDigest1 d).key = b.key := rfl
@[simp] theorem Block.setDigest1_inflight : (b.setDigest1 d).inflight = b.inflight := rfl
end

/-! ## Writing DIGEST2 (R39) -/

section
variable (b : Block) (d : Vector Byte 16)
@[simp] theorem Block.setDigest2_ctrlIe : (b.setDigest2 d).ctrlIe = b.ctrlIe := rfl
@[simp] theorem Block.setDigest2_busy : (b.setDigest2 d).busy = b.busy := rfl
@[simp] theorem Block.setDigest2_done : (b.setDigest2 d).done = b.done := rfl
@[simp] theorem Block.setDigest2_err : (b.setDigest2 d).err = b.err := rfl
@[simp] theorem Block.setDigest2_werr : (b.setDigest2 d).werr = b.werr := rfl
@[simp] theorem Block.setDigest2_errcode : (b.setDigest2 d).errcode = b.errcode := rfl
@[simp] theorem Block.setDigest2_cmd : (b.setDigest2 d).cmd = b.cmd := rfl
@[simp] theorem Block.setDigest2_step : (b.setDigest2 d).step = b.step := rfl
@[simp] theorem Block.setDigest2_keylen : (b.setDigest2 d).keylen = b.keylen := rfl
@[simp] theorem Block.setDigest2_time : (b.setDigest2 d).time = b.time := rfl
@[simp] theorem Block.setDigest2_counter : (b.setDigest2 d).counter = b.counter := rfl
@[simp] theorem Block.setDigest2_offset : (b.setDigest2 d).offset = b.offset := rfl
@[simp] theorem Block.setDigest2_header : (b.setDigest2 d).header = b.header := rfl
@[simp] theorem Block.setDigest2_result : (b.setDigest2 d).result = b.result := rfl
@[simp] theorem Block.setDigest2_codeLo : (b.setDigest2 d).codeLo = b.codeLo := rfl
@[simp] theorem Block.setDigest2_codeHi : (b.setDigest2 d).codeHi = b.codeHi := rfl
@[simp] theorem Block.setDigest2_digest1 : (b.setDigest2 d).digest1 = b.digest1 := rfl
@[simp] theorem Block.setDigest2_digest2 : (b.setDigest2 d).digest2 = d := rfl
@[simp] theorem Block.setDigest2_key : (b.setDigest2 d).key = b.key := rfl
@[simp] theorem Block.setDigest2_inflight : (b.setDigest2 d).inflight = b.inflight := rfl
end

/-! ## Writing OFFSET, HEADER and RESULT (R34 to R36) -/

section
variable (b : Block) (o : BitVec 3) (h : Word) (r : BitVec 20)
@[simp] theorem Block.setTruncated_ctrlIe : (b.setTruncated o h r).ctrlIe = b.ctrlIe := rfl
@[simp] theorem Block.setTruncated_busy : (b.setTruncated o h r).busy = b.busy := rfl
@[simp] theorem Block.setTruncated_done : (b.setTruncated o h r).done = b.done := rfl
@[simp] theorem Block.setTruncated_err : (b.setTruncated o h r).err = b.err := rfl
@[simp] theorem Block.setTruncated_werr : (b.setTruncated o h r).werr = b.werr := rfl
@[simp] theorem Block.setTruncated_errcode : (b.setTruncated o h r).errcode = b.errcode := rfl
@[simp] theorem Block.setTruncated_cmd : (b.setTruncated o h r).cmd = b.cmd := rfl
@[simp] theorem Block.setTruncated_step : (b.setTruncated o h r).step = b.step := rfl
@[simp] theorem Block.setTruncated_keylen : (b.setTruncated o h r).keylen = b.keylen := rfl
@[simp] theorem Block.setTruncated_time : (b.setTruncated o h r).time = b.time := rfl
@[simp] theorem Block.setTruncated_counter : (b.setTruncated o h r).counter = b.counter := rfl
@[simp] theorem Block.setTruncated_offset : (b.setTruncated o h r).offset = o := rfl
@[simp] theorem Block.setTruncated_header : (b.setTruncated o h r).header = h := rfl
@[simp] theorem Block.setTruncated_result : (b.setTruncated o h r).result = r := rfl
@[simp] theorem Block.setTruncated_codeLo : (b.setTruncated o h r).codeLo = b.codeLo := rfl
@[simp] theorem Block.setTruncated_codeHi : (b.setTruncated o h r).codeHi = b.codeHi := rfl
@[simp] theorem Block.setTruncated_digest1 : (b.setTruncated o h r).digest1 = b.digest1 := rfl
@[simp] theorem Block.setTruncated_digest2 : (b.setTruncated o h r).digest2 = b.digest2 := rfl
@[simp] theorem Block.setTruncated_key : (b.setTruncated o h r).key = b.key := rfl
@[simp] theorem Block.setTruncated_inflight : (b.setTruncated o h r).inflight = b.inflight := rfl
end

/-! ## Writing the code (R37) -/

section
variable (b : Block) (lo hi : Word)
@[simp] theorem Block.setCode_ctrlIe : (b.setCode lo hi).ctrlIe = b.ctrlIe := rfl
@[simp] theorem Block.setCode_busy : (b.setCode lo hi).busy = b.busy := rfl
@[simp] theorem Block.setCode_done : (b.setCode lo hi).done = b.done := rfl
@[simp] theorem Block.setCode_err : (b.setCode lo hi).err = b.err := rfl
@[simp] theorem Block.setCode_werr : (b.setCode lo hi).werr = b.werr := rfl
@[simp] theorem Block.setCode_errcode : (b.setCode lo hi).errcode = b.errcode := rfl
@[simp] theorem Block.setCode_cmd : (b.setCode lo hi).cmd = b.cmd := rfl
@[simp] theorem Block.setCode_step : (b.setCode lo hi).step = b.step := rfl
@[simp] theorem Block.setCode_keylen : (b.setCode lo hi).keylen = b.keylen := rfl
@[simp] theorem Block.setCode_time : (b.setCode lo hi).time = b.time := rfl
@[simp] theorem Block.setCode_counter : (b.setCode lo hi).counter = b.counter := rfl
@[simp] theorem Block.setCode_offset : (b.setCode lo hi).offset = b.offset := rfl
@[simp] theorem Block.setCode_header : (b.setCode lo hi).header = b.header := rfl
@[simp] theorem Block.setCode_result : (b.setCode lo hi).result = b.result := rfl
@[simp] theorem Block.setCode_codeLo : (b.setCode lo hi).codeLo = lo := rfl
@[simp] theorem Block.setCode_codeHi : (b.setCode lo hi).codeHi = hi := rfl
@[simp] theorem Block.setCode_digest1 : (b.setCode lo hi).digest1 = b.digest1 := rfl
@[simp] theorem Block.setCode_digest2 : (b.setCode lo hi).digest2 = b.digest2 := rfl
@[simp] theorem Block.setCode_key : (b.setCode lo hi).key = b.key := rfl
@[simp] theorem Block.setCode_inflight : (b.setCode lo hi).inflight = b.inflight := rfl
end

/-! ## Writing the secret (R41, R31) -/

section
variable (b : Block) (k : Vector Byte 256) (n : Word)
@[simp] theorem Block.setSecret_ctrlIe : (b.setSecret k n).ctrlIe = b.ctrlIe := rfl
@[simp] theorem Block.setSecret_busy : (b.setSecret k n).busy = b.busy := rfl
@[simp] theorem Block.setSecret_done : (b.setSecret k n).done = b.done := rfl
@[simp] theorem Block.setSecret_err : (b.setSecret k n).err = b.err := rfl
@[simp] theorem Block.setSecret_werr : (b.setSecret k n).werr = b.werr := rfl
@[simp] theorem Block.setSecret_errcode : (b.setSecret k n).errcode = b.errcode := rfl
@[simp] theorem Block.setSecret_cmd : (b.setSecret k n).cmd = b.cmd := rfl
@[simp] theorem Block.setSecret_step : (b.setSecret k n).step = b.step := rfl
@[simp] theorem Block.setSecret_keylen : (b.setSecret k n).keylen = n := rfl
@[simp] theorem Block.setSecret_time : (b.setSecret k n).time = b.time := rfl
@[simp] theorem Block.setSecret_counter : (b.setSecret k n).counter = b.counter := rfl
@[simp] theorem Block.setSecret_offset : (b.setSecret k n).offset = b.offset := rfl
@[simp] theorem Block.setSecret_header : (b.setSecret k n).header = b.header := rfl
@[simp] theorem Block.setSecret_result : (b.setSecret k n).result = b.result := rfl
@[simp] theorem Block.setSecret_codeLo : (b.setSecret k n).codeLo = b.codeLo := rfl
@[simp] theorem Block.setSecret_codeHi : (b.setSecret k n).codeHi = b.codeHi := rfl
@[simp] theorem Block.setSecret_digest1 : (b.setSecret k n).digest1 = b.digest1 := rfl
@[simp] theorem Block.setSecret_digest2 : (b.setSecret k n).digest2 = b.digest2 := rfl
@[simp] theorem Block.setSecret_key : (b.setSecret k n).key = k := rfl
@[simp] theorem Block.setSecret_inflight : (b.setSecret k n).inflight = b.inflight := rfl
end

/-! ## Another block -/

section
variable (s : State) (b : Block)
@[simp] theorem State.setBlk_blk : (s.setBlk b).blk = b := rfl
@[simp] theorem State.setBlk_host : (s.setBlk b).host = s.host := rfl
@[simp] theorem State.setBlk_rstN : (s.setBlk b).rstN = s.rstN := rfl
@[simp] theorem State.setBlk_sched : (s.setBlk b).sched = s.sched := rfl
end

/-! ## The operand snapshot (R97) -/

section
variable (b : Block)
@[simp] theorem Block.snapshot_time : b.snapshot.time = b.time := rfl
@[simp] theorem Block.snapshot_step : b.snapshot.step = b.step := rfl
@[simp] theorem Block.snapshot_keylen : b.snapshot.keylen = b.keylen := rfl
@[simp] theorem Block.snapshot_key : b.snapshot.key = b.key := rfl
@[simp] theorem Block.snapshot_counter : b.snapshot.counter = b.counter := rfl
@[simp] theorem Block.snapshot_digest1 : b.snapshot.digest1 = b.digest1 := rfl
@[simp] theorem Block.snapshot_digest2 : b.snapshot.digest2 = b.digest2 := rfl
@[simp] theorem Block.snapshot_result : b.snapshot.result = b.result := rfl
end

/-! ## The host notes an answer -/

section
variable (h : HostState) (e : Bool)
@[simp] theorem HostState.noteAnswer_prog : (h.noteAnswer e).prog = h.prog := rfl
@[simp] theorem HostState.noteAnswer_vars : (h.noteAnswer e).vars = h.vars := rfl
@[simp] theorem HostState.noteAnswer_rdata : (h.noteAnswer e).rdata = h.rdata := rfl
@[simp] theorem HostState.noteAnswer_busErr : (h.noteAnswer e).busErr = e := rfl
@[simp] theorem HostState.noteAnswer_fault : (h.noteAnswer e).fault = (h.fault || e) := rfl
end

/-! ## The host takes a read -/

section
variable (h : HostState) (v : Fin 16) (a : BusAnswer)
@[simp] theorem HostState.takeRead_prog : (h.takeRead v a).prog = h.prog := rfl
@[simp] theorem HostState.takeRead_vars : (h.takeRead v a).vars = h.vars.set v a.rdata := rfl
@[simp] theorem HostState.takeRead_rdata : (h.takeRead v a).rdata = a.rdata := rfl
@[simp] theorem HostState.takeRead_busErr : (h.takeRead v a).busErr = a.err := rfl
@[simp] theorem HostState.takeRead_fault : (h.takeRead v a).fault = (h.fault || a.err) := rfl
end

/-! ## The host takes a write -/

section
variable (h : HostState) (n e : Bool)
@[simp] theorem HostState.takeWrite_prog : (h.takeWrite n e).prog = h.prog := rfl
@[simp] theorem HostState.takeWrite_vars : (h.takeWrite n e).vars = h.vars := rfl
@[simp] theorem HostState.takeWrite_rdata : (h.takeWrite n e).rdata = if n then h.rdata else 0 := rfl
@[simp] theorem HostState.takeWrite_busErr : (h.takeWrite n e).busErr = e := rfl
@[simp] theorem HostState.takeWrite_fault : (h.takeWrite n e).fault = (h.fault || e) := rfl
end

/-! ## Read transactions -/

section
variable (s : State) (a : BitVec 12) (v : Fin 16)
@[simp] theorem hostRead_blk : (hostRead s a v).blk = s.blk := rfl
@[simp] theorem hostRead_host : (hostRead s a v).host = s.host.takeRead v (busRead s.rstN s.blk a) := rfl
@[simp] theorem hostRead_rstN : (hostRead s a v).rstN = s.rstN := rfl
@[simp] theorem hostRead_sched : (hostRead s a v).sched = s.sched := rfl
end

/-! ## Write transactions -/

section
variable (s : State) (a : BitVec 12) (m : BitVec 4) (v : Word)
@[simp] theorem hostWrite_blk : (hostWrite s a m v).blk = busWrite s.rstN s.blk a m v := rfl
@[simp] theorem hostWrite_host : (hostWrite s a m v).host = s.host.takeWrite s.rstN (!legalWrite a m) := rfl
@[simp] theorem hostWrite_rstN : (hostWrite s a m v).rstN = s.rstN := rfl
@[simp] theorem hostWrite_sched : (hostWrite s a m v).sched = s.sched := rfl
end

/-! ## Reset asserted and released (70_reset_and_hazards.md R260) -/

section
variable (s : State)
@[simp] theorem State.assertReset_blk : s.assertReset.blk = Block.reset := rfl
@[simp] theorem State.assertReset_host : s.assertReset.host = s.host := rfl
@[simp] theorem State.assertReset_rstN : s.assertReset.rstN = false := rfl
@[simp] theorem State.assertReset_sched : s.assertReset.sched = s.sched := rfl
end

/-! ## Reset released -/

section
variable (s : State)
@[simp] theorem State.releaseReset_blk : s.releaseReset.blk = s.blk := rfl
@[simp] theorem State.releaseReset_host : s.releaseReset.host = s.host := rfl
@[simp] theorem State.releaseReset_rstN : s.releaseReset.rstN = true := rfl
@[simp] theorem State.releaseReset_sched : s.releaseReset.sched = s.sched := rfl
end

/-! ## A program given to the host -/

section
variable (s : State) (p : List HostOp) (sc : List Event)
@[simp] theorem State.load_blk : (s.load p sc).blk = s.blk := rfl
@[simp] theorem State.load_host : (s.load p sc).host = ⟨p, s.host.vars, s.host.rdata, s.host.busErr, s.host.fault⟩ := rfl
@[simp] theorem State.load_rstN : (s.load p sc).rstN = s.rstN := rfl
@[simp] theorem State.load_sched : (s.load p sc).sched = sc := rfl
end

end Sys2Proof.Machine
end

