-- ==== Sys2Proof/Laws/Ops.lean ====
section
/-! SUPPORT. What each shared operation can do, said once: decoding, acceptance, register writes, completion and one step. -/

namespace Sys2Proof.Machine

/-! ## Decoding -/

/-- The OP of a word is its value mod 16. -/
theorem opField_toNat (w : Word) : (opField w).toNat = w.toNat % 16 := by
  simp [opField, BitVec.extractLsb'_toNat]

/-- RSV is 0 exactly when the word is below 16. -/
theorem rsvField_eq_zero (w : Word) : rsvField w = 0 ↔ w.toNat / 16 = 0 := by
  have := w.isLt
  rw [rsvField, ← BitVec.toNat_inj]
  simp [BitVec.extractLsb'_toNat, Nat.shiftRight_eq_div_pow]
  omega

/-- A command's word decodes to it. -/
theorem decode_encode (i : Instr) : decode (encode i) = .ok i := by cases i <;> rfl

/-- A word that decodes is its command's word. -/
theorem eq_encode_of_decode {w : Word} {i : Instr} (h : decode w = .ok i) : w = encode i := by
  have hop := opField_toNat w
  unfold decode at h
  split at h
  · cases h
  · rename_i hr
    have hlt : w.toNat / 16 = 0 := (rsvField_eq_zero w).1 (by simpa using hr)
    have hw : w.toNat % 16 = w.toNat := by omega
    rw [hw] at hop
    split at h
    · rename_i j hj
      cases h
      unfold decodeOp at hj
      rw [hop] at hj
      apply BitVec.eq_of_toNat_eq
      split at hj <;> simp_all <;> subst hj <;> simp_all [encode, opcode]
    · cases h

/-- A word fails to decode exactly when it is illegal (30_encoding.md R94). -/
theorem decode_error_iff (w : Word) : (∃ e, decode w = .error e) ↔ illegalWord w := by
  have hop := opField_toNat w
  unfold decode illegalWord
  by_cases hr : rsvField w = 0
  · have h0 := (rsvField_eq_zero w).1 hr
    simp only [hr, ne_eq, not_true_eq_false, if_false, h0, false_or]
    unfold decodeOp
    rw [hop]
    split <;> (rename_i h; split at h <;> simp_all <;> omega)
  · have h0 := mt (rsvField_eq_zero w).2 hr
    simp only [ne_eq, hr, not_false_eq_true, if_true, h0, true_or, iff_true]
    exact ⟨_, rfl⟩

/-- Every word is illegal or some command's word. -/
theorem illegal_or_encode (w : Word) : illegalWord w ∨ ∃ i, w = encode i := by
  cases h : decode w with
  | error e => exact .inl ((decode_error_iff w).1 ⟨e, h⟩)
  | ok i => exact .inr ⟨i, eq_encode_of_decode h⟩

/-- A command's word is not illegal. -/
theorem not_illegal_encode (i : Instr) : ¬ illegalWord (encode i) := by
  rw [← decode_error_iff, decode_encode]
  simp

/-! ## Acceptance (30_encoding.md R96) -/

/-- An illegal word is rejected with ILLEGAL_CMD. -/
theorem accept_illegal (b : Block) {w : Word} (h : illegalWord w) :
    b.accept w = b.clearForAccept.raise errIllegalCmd := by
  obtain ⟨e, he⟩ := (decode_error_iff w).2 h
  simp [Block.accept, he]

/-- A key-reading command is rejected with KEYLEN_RANGE while KEYLEN > 256. -/
theorem accept_range (b : Block) {i : Instr} (hr : readsKeylen i = true) (hk : 256 < b.keylen.toNat) :
    b.accept (encode i) = b.clearForAccept.raise errKeylenRange := by
  simp [Block.accept, decode_encode, hr, Config.keyMax, hk]

/-- Every other command is started. -/
theorem accept_ok (b : Block) {i : Instr} (h : readsKeylen i = true → b.keylen.toNat ≤ 256) :
    b.accept (encode i) = b.clearForAccept.start i := by
  have : (readsKeylen i && decide (b.keylen.toNat > 256)) = false := by
    cases hr : readsKeylen i <;> simp
    exact h hr
  simp [Block.accept, decode_encode, Config.keyMax, this]

/-- The three outcomes of an acceptance attempt. -/
theorem accept_cases (b : Block) (w : Word) :
    (illegalWord w ∧ b.accept w = b.clearForAccept.raise errIllegalCmd) ∨
    (∃ i, w = encode i ∧ readsKeylen i = true ∧ 256 < b.keylen.toNat ∧
      b.accept w = b.clearForAccept.raise errKeylenRange) ∨
    (∃ i, w = encode i ∧ (readsKeylen i = true → b.keylen.toNat ≤ 256) ∧ b.accept w = b.clearForAccept.start i) := by
  rcases illegal_or_encode w with h | ⟨i, rfl⟩
  · exact .inl ⟨h, accept_illegal b h⟩
  · by_cases h : readsKeylen i = true ∧ 256 < b.keylen.toNat
    · exact .inr (.inl ⟨i, rfl, h.1, h.2, accept_range b h.1 h.2⟩)
    · have h' : readsKeylen i = true → b.keylen.toNat ≤ 256 := fun hr => by
        by_contra hk
        exact h ⟨hr, by omega⟩
      exact .inr (.inr ⟨i, rfl, h', accept_ok b h'⟩)

/-! ## Register writes (20_memory.md R63, R65) -/

/-- A write to an input register while BUSY = 1 is dropped. -/
theorem writeReg_dropped {b : Block} {r : Reg} (v : Word) (hr : isInput r = true) (hb : b.busy = true) :
    b.writeReg r v = b.dropWrite := by
  simp [Block.writeReg, hr, hb]

/-- Any other write is stored. -/
theorem writeReg_stored {b : Block} {r : Reg} (v : Word) (h : isInput r = false ∨ b.busy = false) :
    b.writeReg r v = b.storeReg r v := by
  rcases h with h | h <;> simp [Block.writeReg, h]

/-- A write transaction leaves the block as it is, drops the write, or stores it. -/
theorem busWrite_cases (n : Bool) (b : Block) (a : BitVec 12) (m : BitVec 4) (v : Word) :
    busWrite n b a m v = b ∨
    (legalWrite a m = true ∧ n = true ∧ isInput (Reg.ofOffset a) = true ∧ b.busy = true ∧ busWrite n b a m v = b.dropWrite) ∨
    (legalWrite a m = true ∧ n = true ∧ (isInput (Reg.ofOffset a) = false ∨ b.busy = false) ∧
      busWrite n b a m v = b.storeReg (Reg.ofOffset a) v) := by
  by_cases h : legalWrite a m = true ∧ n = true
  · obtain ⟨h1, h2⟩ := h
    by_cases hd : isInput (Reg.ofOffset a) = true ∧ b.busy = true
    · exact .inr (.inl ⟨h1, h2, hd.1, hd.2, by simp [busWrite, h1, h2, Block.memWrite, writeReg_dropped v hd.1 hd.2]⟩)
    · have hs : isInput (Reg.ofOffset a) = false ∨ b.busy = false := by
        rcases hi : isInput (Reg.ofOffset a) <;> rcases hb : b.busy <;> simp_all
      exact .inr (.inr ⟨h1, h2, hs, by simp [busWrite, h1, h2, Block.memWrite, writeReg_stored v hs]⟩)
  · exact .inl (by simp [busWrite]; intro h1 h2; exact absurd ⟨h1, h2⟩ h)

/-! ## Completion (30_encoding.md R98) -/

/-- The effect of each command. -/
def effectOf : Instr → Operands → Block → Block
  | .cdiv => effectCdiv
  | .hsha1 => effectHsha1
  | .hmd5 => effectHmd5
  | .trunc => effectTrunc
  | .fmt => effectFmt
  | .derive => effectDerive
  | .totp => effectTotp
  | .zeroize => effectZeroize

/-- Every command completes, with its effect and the flags of a completion. -/
theorem exec_eq (i : Instr) (s : State) :
    exec i s = .next (s.setBlk (effectOf i s.blk.operands s.blk).finish) := by
  cases i <;> rfl

/-- With a command in flight, the operands are its snapshot. -/
theorem operands_inflight {b : Block} {f : Inflight} (h : b.inflight = some f) : b.operands = f.snap := by
  simp [Block.operands, h]

/-! The writes of an effect as one record, for values that stay variables: a proof that cites these never unfolds a hash. -/

theorem setCounter_eq (b : Block) (c : DWord) : b.setCounter c = { b with counter := c } := rfl
theorem setDigest1_eq (b : Block) (d : Vector Byte 20) : b.setDigest1 d = { b with digest1 := d } := rfl
theorem setDigest2_eq (b : Block) (d : Vector Byte 16) : b.setDigest2 d = { b with digest2 := d } := rfl
theorem setTruncated_eq (b : Block) (o : BitVec 3) (h : Word) (r : BitVec 20) :
    b.setTruncated o h r = { b with offset := o, header := h, result := r } := rfl
theorem setCode_eq (b : Block) (lo hi : Word) : b.setCode lo hi = { b with codeLo := lo, codeHi := hi } := rfl
theorem setDerived_eq (b : Block) (d1 : Vector Byte 20) (d2 : Vector Byte 16) (o : BitVec 3) (h : Word) (r : BitVec 20)
    (lo hi : Word) :
    (((b.setDigest1 d1).setDigest2 d2).setTruncated o h r).setCode lo hi =
      { b with digest1 := d1, digest2 := d2, offset := o, header := h, result := r, codeLo := lo, codeHi := hi } := rfl
theorem setErased_eq (b : Block) (k : Vector Byte 256) (n : Word) (d1 : Vector Byte 20) (d2 : Vector Byte 16) (o : BitVec 3)
    (h : Word) (r : BitVec 20) (lo hi : Word) :
    ((((b.setSecret k n).setDigest1 d1).setDigest2 d2).setTruncated o h r).setCode lo hi =
      { b with key := k, keylen := n, digest1 := d1, digest2 := d2, offset := o, header := h, result := r,
               codeLo := lo, codeHi := hi } := rfl

/-- DERIVE's first digest (44_composite_control.md R190, step 3). -/
def derivedDigest1 (o : Operands) : Vector Byte 20 := hmacSha1 o.secret (counterBytes o.counter)

/-- DERIVE's second digest (R190, step 4). -/
def derivedDigest2 (o : Operands) : Vector Byte 16 := hmacMd5 (derivedDigest1 o).toList (counterBytes o.counter)

/-- DERIVE's effect as a chain of writes. -/
theorem effectDerive_eq (o : Operands) (b : Block) :
    effectDerive o b =
      (((b.setDigest1 (derivedDigest1 o)).setDigest2 (derivedDigest2 o)).setTruncated (offsetOf (derivedDigest2 o))
        (headerAt (derivedDigest2 o) (offsetOf (derivedDigest2 o)))
        (resultOf (headerAt (derivedDigest2 o) (offsetOf (derivedDigest2 o))))).setCode
        (be32 (digit (resultOf (headerAt (derivedDigest2 o) (offsetOf (derivedDigest2 o)))) 0)
          (digit (resultOf (headerAt (derivedDigest2 o) (offsetOf (derivedDigest2 o)))) 1)
          (digit (resultOf (headerAt (derivedDigest2 o) (offsetOf (derivedDigest2 o)))) 2)
          (digit (resultOf (headerAt (derivedDigest2 o) (offsetOf (derivedDigest2 o)))) 3))
        (be32 (digit (resultOf (headerAt (derivedDigest2 o) (offsetOf (derivedDigest2 o)))) 4)
          (digit (resultOf (headerAt (derivedDigest2 o) (offsetOf (derivedDigest2 o)))) 5) 0 0) := rfl

/-- Everything an effect can do: it gives values to COUNTER, the digests, the truncation registers, the code and the secret, keeping those
its command does not write (30_encoding.md R93), and touches nothing else. -/
theorem effectOf_cases (i : Instr) (o : Operands) (b : Block) :
    ∃ c d1 d2 ofs h r lo hi k n,
      effectOf i o b = { b with counter := c, digest1 := d1, digest2 := d2, offset := ofs, header := h, result := r,
                                codeLo := lo, codeHi := hi, key := k, keylen := n } ∧
      (i ≠ .cdiv → i ≠ .totp → c = b.counter) ∧
      (i ≠ .hsha1 → i ≠ .derive → i ≠ .totp → i ≠ .zeroize → d1 = b.digest1) ∧
      (i ≠ .hmd5 → i ≠ .derive → i ≠ .totp → i ≠ .zeroize → d2 = b.digest2) ∧
      (i ≠ .trunc → i ≠ .derive → i ≠ .totp → i ≠ .zeroize → ofs = b.offset ∧ h = b.header ∧ r = b.result) ∧
      (i ≠ .fmt → i ≠ .derive → i ≠ .totp → i ≠ .zeroize → lo = b.codeLo ∧ hi = b.codeHi) ∧
      (i ≠ .zeroize → k = b.key ∧ n = b.keylen) := by
  cases i
  case cdiv => exact ⟨_, _, _, _, _, _, _, _, _, _, setCounter_eq b _, by simp⟩
  case hsha1 => exact ⟨_, _, _, _, _, _, _, _, _, _, setDigest1_eq b _, by simp⟩
  case hmd5 => exact ⟨_, _, _, _, _, _, _, _, _, _, setDigest2_eq b _, by simp⟩
  case trunc => exact ⟨_, _, _, _, _, _, _, _, _, _, setTruncated_eq b _ _ _, by simp⟩
  case fmt => exact ⟨_, _, _, _, _, _, _, _, _, _, setCode_eq b _ _, by simp⟩
  case derive => exact ⟨_, _, _, _, _, _, _, _, _, _, (effectDerive_eq o b).trans (setDerived_eq b _ _ _ _ _ _ _), by simp⟩
  case totp =>
    exact ⟨_, _, _, _, _, _, _, _, _, _,
      (effectDerive_eq _ _).trans (setDerived_eq (b.setCounter (divideTime o)) _ _ _ _ _ _ _), by simp⟩
  case zeroize => exact ⟨_, _, _, _, _, _, _, _, _, _, setErased_eq b _ _ _ _ _ _ _ _ _, by simp⟩

/-- What no effect touches: the flags, the configuration, TIME, STEP, CMD and the in-flight record. -/
theorem effectOf_frame (i : Instr) (o : Operands) (b : Block) :
    (effectOf i o b).ctrlIe = b.ctrlIe ∧ (effectOf i o b).busy = b.busy ∧ (effectOf i o b).done = b.done ∧
    (effectOf i o b).err = b.err ∧ (effectOf i o b).werr = b.werr ∧ (effectOf i o b).errcode = b.errcode ∧
    (effectOf i o b).cmd = b.cmd ∧ (effectOf i o b).step = b.step ∧ (effectOf i o b).time = b.time ∧
    (effectOf i o b).inflight = b.inflight := by
  obtain ⟨c, d1, d2, ofs, h, r, lo, hi, k, n, he, -⟩ := effectOf_cases i o b
  rw [he]
  simp

/-- Only ZEROIZE touches the key and KEYLEN. -/
theorem effectOf_key {i : Instr} (hz : i ≠ .zeroize) (o : Operands) (b : Block) :
    (effectOf i o b).key = b.key ∧ (effectOf i o b).keylen = b.keylen := by
  obtain ⟨c, d1, d2, ofs, h, r, lo, hi, k, n, he, -, -, -, -, -, hk⟩ := effectOf_cases i o b
  rw [he]
  exact hk hz

/-! ## One step (20_memory.md R73) -/

/-- The engine's step with a command in flight. -/
theorem engineStep_inflight {s : State} {f : Inflight} (hb : s.blk.busy = true) (hf : s.blk.inflight = some f) :
    engineStep s = exec f.op s := by
  simp [engineStep, hb, hf]

/-- The engine's step with BUSY = 0. -/
theorem engineStep_idle {s : State} (hb : s.blk.busy = false) : engineStep s = .next s := by
  simp [engineStep, hb]

/-- The two outcomes of the engine's step. -/
theorem engineStep_cases (s : State) :
    engineStep s = .next s ∨
    ∃ f, s.blk.busy = true ∧ s.blk.inflight = some f ∧
      engineStep s = .next (s.setBlk (effectOf f.op f.snap s.blk).finish) := by
  cases hb : s.blk.busy with
  | false => exact .inl (engineStep_idle hb)
  | true =>
    cases hf : s.blk.inflight with
    | none => exact .inl (by simp [engineStep, hf])
    | some f => exact .inr ⟨f, rfl, rfl, by rw [engineStep_inflight hb hf, exec_eq, operands_inflight hf]⟩

/-- What the host's step can do: nothing, a read, a write, or a read of STATUS by POLL that does or does not end the loop. -/
theorem hostStep_cases (s : State) :
    (s.host.prog = [] ∧ hostStep s = s) ∨
    (∃ a v rest, s.host.prog = .rd a v :: rest ∧
      hostStep s = hostRead { s with host := { s.host with prog := rest } } a v) ∨
    (∃ a m v rest, s.host.prog = .wr a m v :: rest ∧
      hostStep s = hostWrite { s with host := { s.host with prog := rest } } a m v) ∨
    (∃ rest p, s.host.prog = .poll :: rest ∧ (p = .poll :: rest ∨ p = rest) ∧
      hostStep s = { s with
        host := { s.host.takeRead pollVar (busRead s.rstN s.blk Reg.status.toOffset) with prog := p } }) := by
  unfold hostStep
  split
  · exact .inl ⟨‹_›, rfl⟩
  · exact .inr (.inl ⟨_, _, _, ‹_›, rfl⟩)
  · exact .inr (.inr (.inl ⟨_, _, _, _, ‹_›, rfl⟩))
  · refine .inr (.inr (.inr ⟨_, _, ‹_›, ?_, rfl⟩))
    split
    · exact .inl rfl
    · exact .inr rfl

/-- What the host's step does to the block: nothing, or one write transaction. -/
theorem hostStep_blk (s : State) :
    (hostStep s).blk = s.blk ∨
    ∃ a m v rest, s.host.prog = .wr a m v :: rest ∧ (hostStep s).blk = busWrite s.rstN s.blk a m v := by
  rcases hostStep_cases s with ⟨_, h⟩ | ⟨a, v, rest, _, h⟩ | ⟨a, m, v, rest, hp, h⟩ | ⟨rest, p, _, _, h⟩ <;> rw [h]
  · exact .inl rfl
  · exact .inl rfl
  · exact .inr ⟨a, m, v, rest, hp, rfl⟩
  · exact .inl rfl

/-- The host's step touches neither the interleaving nor rst_n. -/
theorem hostStep_frame (s : State) : (hostStep s).sched = s.sched ∧ (hostStep s).rstN = s.rstN := by
  rcases hostStep_cases s with ⟨_, h⟩ | ⟨a, v, rest, _, h⟩ | ⟨a, m, v, rest, hp, h⟩ | ⟨rest, p, _, _, h⟩ <;> rw [h] <;>
    exact ⟨rfl, rfl⟩

/-- One step is the step of one event, on the state with that event taken off the interleaving. -/
theorem step_event (s : State) :
    (s.sched = [] ∧ step s = eventStep (if s.blk.busy then .engine else .host) s) ∨
    ∃ e sc, s.sched = e :: sc ∧ step s = eventStep e { s with sched := sc } := by
  unfold step defaultEvent
  split
  · exact .inl ⟨‹_›, rfl⟩
  · exact .inr ⟨_, _, ‹_›, rfl⟩

/-- Which agent a step moves, and what the step then is: said once, for every rule about what can change a register. -/
theorem step_agents (s : State) : ∃ sc,
    (hostMoves s ∧ step s = .next (hostStep { s with sched := sc })) ∨
    (engineMoves s ∧ step s = engineStep { s with sched := sc }) ∨
    (resetMoves s ∧ step s = .next ({ s with sched := sc } : State).assertReset) ∨
    step s = .next ({ s with sched := sc } : State).releaseReset := by
  rcases step_event s with ⟨hs, h⟩ | ⟨e, sc, hs, h⟩
  · have hself : ({ s with sched := [] } : State) = s := by rw [← hs]
    refine ⟨[], ?_⟩
    rw [hself]
    cases hb : s.blk.busy <;> rw [hb] at h
    · exact .inl ⟨.inl ⟨hs, hb⟩, h⟩
    · exact .inr (.inl ⟨.inl ⟨hs, hb⟩, h⟩)
  · refine ⟨sc, ?_⟩
    cases e with
    | host => exact .inl ⟨.inr ⟨sc, hs⟩, h⟩
    | engine => exact .inr (.inl ⟨.inr ⟨sc, hs⟩, h⟩)
    | resetLow => exact .inr (.inr (.inl ⟨⟨sc, hs⟩, h⟩))
    | resetHigh => exact .inr (.inr (.inr h))

/-- Every event's step answers a next state. -/
theorem eventStep_next (e : Event) (s : State) : ∃ t, eventStep e s = .next t := by
  cases e with
  | host => exact ⟨_, rfl⟩
  | engine => rcases engineStep_cases s with h | ⟨f, _, _, h⟩ <;> exact ⟨_, h⟩
  | resetLow => exact ⟨_, rfl⟩
  | resetHigh => exact ⟨_, rfl⟩

end Sys2Proof.Machine
end

