-- ==== Sys2Proof/Laws/Window.lean ====
section
/-! SUPPORT. Which register stands at each offset (10_state.md R20), what a write of it comes to, and how runs unfold. -/

namespace Sys2Proof.Machine

/-! ## Offsets -/

theorem ofOffset_ident : Reg.ofOffset 0x000 = .ident := rfl
theorem ofOffset_ctrl : Reg.ofOffset 0x004 = .ctrl := rfl
theorem ofOffset_status : Reg.ofOffset 0x008 = .status := rfl
theorem ofOffset_cmd : Reg.ofOffset 0x00C = .cmd := rfl
theorem ofOffset_step : Reg.ofOffset 0x010 = .step := rfl
theorem ofOffset_keylen : Reg.ofOffset 0x014 = .keylen := rfl
theorem ofOffset_timeLo : Reg.ofOffset 0x018 = .timeLo := rfl
theorem ofOffset_timeHi : Reg.ofOffset 0x01C = .timeHi := rfl
theorem ofOffset_counterLo : Reg.ofOffset 0x020 = .counterLo := rfl
theorem ofOffset_counterHi : Reg.ofOffset 0x024 = .counterHi := rfl

/-- DIGEST1_i stands at 0x040 + 4i. -/
theorem ofOffset_digest1 : ∀ i : Fin 5, Reg.ofOffset (BitVec.ofNat 12 (0x040 + 4 * i.val)) = .digest1 i := by decide

/-- DIGEST2_i stands at 0x060 + 4i. -/
theorem ofOffset_digest2 : ∀ i : Fin 4, Reg.ofOffset (BitVec.ofNat 12 (0x060 + 4 * i.val)) = .digest2 i := by decide

/-- KEY_i stands at 0x100 + 4i. -/
theorem ofOffset_key : ∀ i : Fin 64, Reg.ofOffset (BitVec.ofNat 12 (0x100 + 4 * i.val)) = .key i := by decide +kernel

/-- An offset is aligned exactly when it is a multiple of 4. -/
theorem aligned_iff (a : BitVec 12) : aligned a = true ↔ wordOffset a := by
  unfold aligned wordOffset
  rw [beq_iff_eq, ← BitVec.toNat_inj]
  simp [BitVec.extractLsb'_toNat]

/-- A write is legal exactly when it is aligned and drives all four strobes. -/
theorem legalWrite_iff (a : BitVec 12) (m : BitVec 4) : legalWrite a m = true ↔ wordOffset a ∧ m = 0xF := by
  simp [legalWrite, aligned_iff]

/-! ## Register writes -/

/-- A CMD write to the idle block is an acceptance attempt. -/
theorem memWrite_cmd {b : Block} (w : Word) (h : b.busy = false) : b.memWrite 0x00C w = { b with cmd := w }.accept w := by
  rw [Block.memWrite, ofOffset_cmd, writeReg_stored w (.inr h)]
  rfl

/-- A legal write while rst_n is high is a window write. -/
theorem busWrite_legal (b : Block) {a : BitVec 12} {m : BitVec 4} (v : Word) (h : legalWrite a m = true) :
    busWrite true b a m v = b.memWrite a v := by
  simp [busWrite, h]

/-- An accepted CMD write through the bus. -/
theorem busWrite_cmd_ok {b : Block} {i : Instr} (hb : b.busy = false) (h : readsKeylen i = true → b.keylen.toNat ≤ 256) :
    busWrite true b 0x00C 0xF (encode i) =
      { b with cmd := encode i, done := false, err := false, errcode := 0, busy := true,
               inflight := some ⟨i, b.snapshot⟩ } := by
  rw [busWrite_legal b _ rfl, memWrite_cmd _ hb]
  exact accept_ok { b with cmd := encode i } h

/-! ## Runs -/

@[simp] theorem run_zero (s : State) : run 0 s = .next s := rfl

/-- A run whose first step is known. -/
theorem run_succ {s t : State} (k : Nat) (h : step s = .next t) : run (k + 1) s = run k t := by
  simp only [run, h]

/-- The step of a scheduled event. -/
theorem step_cons {s : State} {e : Event} {sc : List Event} (h : s.sched = e :: sc) :
    step s = eventStep e { s with sched := sc } := by
  simp only [step, h]

/-- A scheduled engine step with a command in flight is its `exec`. -/
theorem step_engine {s : State} {f : Inflight} {sc : List Event} (h : s.sched = .engine :: sc) (hb : s.blk.busy = true)
    (hf : s.blk.inflight = some f) : step s = exec f.op { s with sched := sc } :=
  (step_cons h).trans (engineStep_inflight (s := { s with sched := sc }) hb hf)

/-- With nothing scheduled, the engine moves while BUSY = 1. -/
theorem step_nil_busy {s : State} (h : s.sched = []) (hb : s.blk.busy = true) : step s = engineStep s := by
  simp only [step, h, defaultEvent, hb, if_true, eventStep]

/-- With nothing scheduled, the host moves while BUSY = 0. -/
theorem step_nil_idle {s : State} (h : s.sched = []) (hb : s.blk.busy = false) : step s = .next (hostStep s) := by
  simp [step, h, defaultEvent, hb, eventStep]

/-- While rst_n is high the host takes a write's answer by noting it. -/
@[simp] theorem takeWrite_running (h : HostState) (e : Bool) : h.takeWrite true e = h.noteAnswer e := rfl

/-- The host's step at a write. -/
theorem hostStep_wr {s : State} {a : BitVec 12} {m : BitVec 4} {v : Word} {rest : List HostOp}
    (h : s.host.prog = .wr a m v :: rest) :
    hostStep s = hostWrite { s with host := { s.host with prog := rest } } a m v := by
  simp only [hostStep, h]

/-- The host's step at a read. -/
theorem hostStep_rd {s : State} {a : BitVec 12} {v : Fin 16} {rest : List HostOp} (h : s.host.prog = .rd a v :: rest) :
    hostStep s = hostRead { s with host := { s.host with prog := rest } } a v := by
  simp only [hostStep, h]

/-- STATUS bit 0 is BUSY. -/
theorem statusWord_busy (b : Block) : b.statusWord[0] = b.busy := by
  cases hb : b.busy <;> simp [Block.statusWord, flagWord, hb, BitVec.ofBool]

/-- The host's step at POLL while rst_n is high: it reads STATUS into v15 and stays exactly while BUSY = 1. -/
theorem hostStep_poll {s : State} {rest : List HostOp} (h : s.host.prog = .poll :: rest) (hn : s.rstN = true) :
    hostStep s = { s with host := { s.host with
      prog := if s.blk.busy then .poll :: rest else rest, rdata := s.blk.statusWord, busErr := false,
      vars := s.host.vars.set 15 s.blk.statusWord } } := by
  have hr : busRead true s.blk Reg.status.toOffset = ⟨false, s.blk.statusWord⟩ := rfl
  simp only [hostStep, h, hn, hr, HostState.takeRead, HostState.noteAnswer, pollVar, Bool.or_false, statusWord_busy]
  rfl

end Sys2Proof.Machine
end

