-- ==== Sys2Proof/Laws/Commands.lean ====
section
/-! SUPPORT. What each command's completion comes to, for values that stay variables: a proof that cites these never unfolds a hash, a
quotient or a table. -/

namespace Sys2Proof.Machine

/-! ## Writes with the completion's flags, as one record -/

theorem finish_setCounter (b : Block) (c : DWord) :
    (b.setCounter c).finish = { b with counter := c, inflight := none, busy := false, done := true } := rfl
theorem finish_setDigest1 (b : Block) (d : Vector Byte 20) :
    (b.setDigest1 d).finish = { b with digest1 := d, inflight := none, busy := false, done := true } := rfl
theorem finish_setDigest2 (b : Block) (d : Vector Byte 16) :
    (b.setDigest2 d).finish = { b with digest2 := d, inflight := none, busy := false, done := true } := rfl
theorem finish_setTruncated (b : Block) (o : BitVec 3) (h : Word) (r : BitVec 20) :
    (b.setTruncated o h r).finish =
      { b with offset := o, header := h, result := r, inflight := none, busy := false, done := true } := rfl
theorem finish_setCode (b : Block) (lo hi : Word) :
    (b.setCode lo hi).finish =
      { b with codeLo := lo, codeHi := hi, inflight := none, busy := false, done := true } := rfl
theorem finish_setDerived (b : Block) (d1 : Vector Byte 20) (d2 : Vector Byte 16) (o : BitVec 3) (h : Word) (r : BitVec 20)
    (lo hi : Word) :
    ((((b.setDigest1 d1).setDigest2 d2).setTruncated o h r).setCode lo hi).finish =
      { b with digest1 := d1, digest2 := d2, offset := o, header := h, result := r, codeLo := lo, codeHi := hi,
               inflight := none, busy := false, done := true } := rfl
theorem finish_setErased (b : Block) (k : Vector Byte 256) (n : Word) (d1 : Vector Byte 20) (d2 : Vector Byte 16) (o : BitVec 3)
    (h : Word) (r : BitVec 20) (lo hi : Word) :
    (((((b.setSecret k n).setDigest1 d1).setDigest2 d2).setTruncated o h r).setCode lo hi).finish =
      { b with key := k, keylen := n, digest1 := d1, digest2 := d2, offset := o, header := h, result := r,
               codeLo := lo, codeHi := hi, inflight := none, busy := false, done := true } := rfl

/-- The machine after a completion that answers next (30_encoding.md R98). -/
theorem exec_next {i : Instr} {s t : State} (h : exec i s = .next t) :
    t = s.setBlk (effectOf i s.blk.operands s.blk).finish := by
  rw [exec_eq] at h
  cases h
  rfl

/-- A completion with its command in flight, from the snapshot. -/
theorem exec_inflight {i : Instr} {s : State} {o : Operands} (h : s.blk.inflight = some ⟨i, o⟩) :
    exec i s = .next (s.setBlk (effectOf i o s.blk).finish) := by
  rw [exec_eq, operands_inflight h]

/-! ## Values in numbers -/

/-- The quotient is that of natural numbers (40_counter_divider.md R111). -/
theorem divideTime_toNat {o : Operands} (h : o.step ≠ 0) : (divideTime o).toNat = o.time.toNat / o.step.toNat := by
  have := o.step.isLt
  rw [divideTime, if_neg h, BitVec.toNat_udiv, BitVec.toNat_setWidth, Nat.mod_eq_of_lt (by omega)]

/-- Four bytes, most significant first, as a number. -/
theorem be32_toNat (a b c d : Byte) : (be32 a b c d).toNat = beValue a b c d := by
  have := b.isLt; have := c.isLt; have := d.isLt
  unfold be32 beValue
  simp only [BitVec.toNat_append]
  rw [← Nat.shiftLeft_add_eq_or_of_lt (by omega), ← Nat.shiftLeft_add_eq_or_of_lt (by omega),
    ← Nat.shiftLeft_add_eq_or_of_lt (by omega)]
  simp only [Nat.shiftLeft_eq]

/-- The offset as a number, at most 5 (43_truncate_format.md R171). -/
theorem offset_mask : ∀ x : Byte,
    ((x &&& 0x05).setWidth 3 : BitVec 3) = BitVec.ofNat 3 (x.toNat &&& 5) ∧
    ((x &&& 0x05).setWidth 3 : BitVec 3).toNat = x.toNat &&& 5 ∧ x.toNat &&& 5 ≤ 5 := by
  decide +kernel

/-- The sign mask drops bit 31 (R172). -/
theorem signMask_toNat (h : Word) : (h &&& Config.signMask).toNat = h.toNat % 2 ^ 31 := by
  rw [BitVec.toNat_and]
  exact Nat.and_two_pow_sub_one_eq_mod _ 31

/-- The result as a number (R172). -/
theorem resultOf_toNat (h : Word) : (resultOf h).toNat = h.toNat % 2 ^ 31 % 1000000 := by
  have hlt : h.toNat % 2 ^ 31 % 1000000 < 2 ^ 20 := lt_of_lt_of_le (Nat.mod_lt _ (by norm_num)) (by norm_num)
  rw [resultOf, BitVec.toNat_setWidth, BitVec.toNat_umod, signMask_toNat]
  exact Nat.mod_eq_of_lt hlt

/-- A result has at most six decimal digits (R172). -/
theorem resultOf_le (h : Word) : (resultOf h).toNat ≤ 999999 := by
  have := Nat.mod_lt (h.toNat % 2 ^ 31) (show 1000000 > 0 by norm_num)
  rw [resultOf_toNat]
  omega

/-- A digit's character code (R173). -/
theorem digit_toNat (r : BitVec 20) (k : Nat) : (digit r k).toNat = 0x30 + r.toNat / 10 ^ (5 - k) % 10 := by
  have := Nat.mod_lt (r.toNat / 10 ^ (5 - k)) (show 10 > 0 by norm_num)
  rw [digit, BitVec.toNat_ofNat]
  simp only [Config.asciiZero]
  omega

end Sys2Proof.Machine
end

