-- ==== Sys2Proof/Laws/PerInstr.lean ====
section
/-! SUPPORT. Statements made per instruction: the round trip of every command's word (30_encoding.md R91, R92, R101). -/

namespace Sys2Proof.Laws.RoundTrip

open Sys2Proof Sys2Proof.Machine

/-- The command is well formed, its word decodes to it and to nothing else, RSV is 0, and the word disassembles to its mnemonic. -/
def Statement (i : Instr) : Prop :=
  i.wf = true ∧ (∀ w : Word, decode w = .ok i ↔ w = encode i) ∧ rsvField (encode i) = 0 ∧ disassemble (encode i) = i.mnemonic

/-- A command's word is the only one that decodes to it. -/
theorem decode_iff (i : Instr) (w : Word) : decode w = .ok i ↔ w = encode i :=
  ⟨eq_encode_of_decode, fun h => h ▸ decode_encode i⟩

theorem cdiv : Statement .cdiv := ⟨rfl, decode_iff _, rfl, rfl⟩
theorem hsha1 : Statement .hsha1 := ⟨rfl, decode_iff _, rfl, rfl⟩
theorem hmd5 : Statement .hmd5 := ⟨rfl, decode_iff _, rfl, rfl⟩
theorem trunc : Statement .trunc := ⟨rfl, decode_iff _, rfl, rfl⟩
theorem fmt : Statement .fmt := ⟨rfl, decode_iff _, rfl, rfl⟩
theorem derive : Statement .derive := ⟨rfl, decode_iff _, rfl, rfl⟩
theorem totp : Statement .totp := ⟨rfl, decode_iff _, rfl, rfl⟩
theorem zeroize : Statement .zeroize := ⟨rfl, decode_iff _, rfl, rfl⟩

end Sys2Proof.Laws.RoundTrip
end

