-- ==== Sys2Proof/Tests/Slice0.lean ====
section
/-! SUPPORT. Tests against the spec's own tables (95_test_vectors.md), the smoke test of WellFormed, and a witness for the hypotheses of
every statement. Each test names the row its expected value comes from. -/

namespace Sys2Proof.Tests

open Sys2Proof Sys2Proof.Machine

/-! ## WellFormed refuses an ill-formed term for each check (30_encoding.md R99, R100) -/

theorem test_wf_refuses_unnamed_write : (Stmt.wrReg .reserved (.num 0)).wf = false := by decide
theorem test_wf_refuses_unnamed_read : (Stmt.rdReg .reserved 0).wf = false := by decide
theorem test_wf_refuses_wide_immediate : (Stmt.wrReg .step (.num (2 ^ 32))).wf = false := by decide
theorem test_wf_refuses_variable_16 : (Stmt.rdReg .status 16).wf = false := by decide
theorem test_wf_refuses_far_write : (Stmt.wrOff 4096 (.num 0)).wf = false := by decide
theorem test_wf_refuses_far_read : (Stmt.rdOff 4096 0).wf = false := by decide
theorem test_wf_refuses_wide_offset_write : (Stmt.wrOff 0 (.num (2 ^ 32))).wf = false := by decide
theorem test_wf_refuses_variable_16_at_offset : (Stmt.rdOff 0 16).wf = false := by decide
theorem test_wf_refuses_wide_raw_word : (Stmt.issueW (.num (2 ^ 32))).wf = false := by decide
theorem test_wf_refuses_65_bits : (Stmt.ld64 .time (2 ^ 64)).wf = false := by decide
theorem test_wf_refuses_257_key_bytes : (Stmt.ldkey (List.replicate 257 0)).wf = false := by decide +kernel
theorem test_wf_refuses_wide_key_byte : (Stmt.ldkey [256]).wf = false := by decide
theorem test_wf_accepts_the_bounds :
    (Stmt.rdOff 4095 15).wf && (Stmt.wrOff 4095 (.num (2 ^ 32 - 1))).wf && (Stmt.ld64 .counter (2 ^ 64 - 1)).wf &&
      (Stmt.ldkey (List.replicate 256 255)).wf && (Stmt.issueW (.num (2 ^ 32 - 1))).wf && (Stmt.wrReg .step (.word .totp)).wf = true := by
  decide +kernel
theorem test_ill_formed_program_is_refused : assemble [.poll, .issueW (.num (2 ^ 32))] = none := by decide

/-! ## Decoding: RSV (28 bits) then OP (4 bits), from the opcode map (R91, R92) -/

theorem test_decode_cdiv : decode 0b0000000000000000000000000000_0001#32 = .ok .cdiv := by decide
theorem test_decode_hsha1 : decode 0b0000000000000000000000000000_0010#32 = .ok .hsha1 := by decide
theorem test_decode_hmd5 : decode 0b0000000000000000000000000000_0011#32 = .ok .hmd5 := by decide
theorem test_decode_trunc : decode 0b0000000000000000000000000000_0100#32 = .ok .trunc := by decide
theorem test_decode_fmt : decode 0b0000000000000000000000000000_0101#32 = .ok .fmt := by decide
theorem test_decode_derive : decode 0b0000000000000000000000000000_0110#32 = .ok .derive := by decide
theorem test_decode_totp : decode 0b0000000000000000000000000000_0111#32 = .ok .totp := by decide
theorem test_decode_zeroize : decode 0b0000000000000000000000000000_1000#32 = .ok .zeroize := by decide
theorem test_decode_rejects_op_15 : decode 0b0000000000000000000000000000_1111#32 = .error .opReserved := by decide
theorem test_decode_rejects_rsv_bit : decode 0b0000000000000000000000000001_0001#32 = .error .rsvNonZero := by decide
theorem test_table_word : decodeTableWord 32 8 = some .zeroize := by decide
theorem test_disassemble_illegal : disassemble 0x80000006 = ".cmd 0x80000006" := by decide

/-! ## The host's text and its listing (95_test_vectors.md P1, 30_encoding.md R100, R102) -/

theorem test_ldkey_line : parseLine "LDKEY  48 65 6C 6C 6F 21 DE AD BE EF   ; W 014 0000000A".toList =
    some (.ldkey [0x48, 0x65, 0x6C, 0x6C, 0x6F, 0x21, 0xDE, 0xAD, 0xBE, 0xEF]) := by decide +kernel
theorem test_read_line : parseLine "RD     STATUS -> v0".toList = some (.rdReg .status 0) := by decide +kernel
theorem test_offset_line : parseLine "WR [0x010], TOTP".toList = some (.wrOff 0x010 (.word .totp)) := by decide +kernel
/-- R99, R100: a mnemonic stands as ISSUE.W's immediate, and the line is `WR CMD` of its word. -/
theorem test_raw_mnemonic_line : ((parseLine "ISSUE.W DERIVE".toList).map expand).map (·.map encodeOp) =
    some ["W 00C 00000006".toList] := by decide +kernel
theorem test_ldkey_listing : (expand (.ldkey [0x48, 0x65, 0x6C, 0x6C, 0x6F, 0x21, 0xDE, 0xAD, 0xBE, 0xEF])).map encodeOp =
    ["W 014 0000000A".toList, "W 100 48656C6C".toList, "W 104 6F21DEAD".toList, "W 108 BEEF0000".toList] := by decide +kernel

/-! ## The window and its errors (95_test_vectors.md section 2.6) -/

/-- E4, E8: RSV is looked at before KEYLEN. -/
theorem test_illegal_word : (Block.reset.memWrite 0x00C 0x80000006).memRead 0x008 = 0x00000104 := by decide
theorem test_illegal_before_keylen : ({ Block.reset with keylen := 257 }.memWrite 0x00C 0x16).memRead 0x008 = 0x00000104 := by decide
/-- E5. -/
theorem test_keylen_range : ({ Block.reset with keylen := 257 }.memWrite 0x00C 0x2).memRead 0x008 = 0x00000204 := by decide
/-- E10: a write dropped while busy, with DERIVE in flight. -/
theorem test_dropped_write :
    (((Block.reset.memWrite 0x00C 0x6).memWrite 0x014 5).memRead 0x008,
     ((Block.reset.memWrite 0x00C 0x6).memWrite 0x014 5).memRead 0x014) = (0x00000009, 0) := by decide
/-- E12, E13, E16. -/
theorem test_misaligned_read : busRead true Block.reset 0x001 = ⟨true, 0⟩ := by decide
theorem test_partial_strobes : busWrite true Block.reset 0x014 0x3 5 = Block.reset := by decide +kernel
theorem test_reserved_read : busRead true Block.reset 0x800 = ⟨false, 0⟩ := by decide
/-- E15: KEY is write-only, most significant byte first. -/
theorem test_key_write : (Block.reset.memWrite 0x100 0x48656C6C).key[0] = 0x48 ∧ (Block.reset.memWrite 0x100 0x48656C6C).memRead 0x100 = 0 := by
  decide +kernel
/-- E17: acceptance keeps WERR, W1C keeps ERRCODE. -/
theorem test_w1c :
    ({ Block.reset with err := true, errcode := 1, werr := true }.memWrite 0x008 0x4).memRead 0x008 = 0x00000108 := by decide
/-- E18: irq is masked by IE and comes back with it. -/
theorem test_irq : (((Block.reset.memWrite 0x004 1).memWrite 0x00C 0).irq, (((Block.reset.memWrite 0x004 1).memWrite 0x00C 0).memWrite 0x004 0).irq) =
    (true, false) := by decide
/-- E19: clearing the one pending bit lowers irq. -/
theorem test_irq_w1c : (({ Block.reset with ctrlIe := true, done := true }).memWrite 0x008 0x2).irq = false := by decide
/-- 70_reset_and_hazards.md R260: a write while rst_n = 0 completes with rdata = 0. -/
theorem test_write_in_reset : (hostWrite { State.reset with rstN := false, host := { HostState.start with rdata := 7 } } 0x010 0xF 5).host.rdata = 0 := by
  decide
/-- E20. -/
theorem test_step_zero : (Block.reset.memWrite 0x010 0).memRead 0x010 = 30 := by decide

/-! ## The commands, one step each -/

/-- The state in which command `i` is about to complete with operands `o`. -/
def flying (i : Instr) (o : Operands) : State := State.reset.withFlight i o

/-- The operands right after reset. -/
def noOperands : Operands := Block.reset.snapshot

/-- What offset `a` reads after a step; none if the step stops. -/
def readAfter (a : BitVec 12) (r : Host.Outcome State Fault Refusal) : Option Word :=
  match r with
  | .next t => some (t.blk.memRead a)
  | .fault _ | .refused _ => none

/-- The empty key and counter 0 (H11). -/
theorem test_hsha1 : readAfter 0x040 (exec .hsha1 (flying .hsha1 noOperands)) = some 0xDAB69AD9 := by decide +kernel
/-- C10, C12. -/
theorem test_cdiv_wide_step : readAfter 0x024 (exec .cdiv (flying .cdiv { noOperands with time := 0xFFFFFFFFFFFFFFFF, step := 0xFFFFFFFF })) =
    some 1 := by decide +kernel
theorem test_cdiv_unsigned : readAfter 0x020 (exec .cdiv (flying .cdiv { noOperands with time := 0xFFFFFFFFFFFFFFE2 })) =
    some 0x88888887 := by decide +kernel
/-- H11: the MD5 key is DIGEST1. -/
theorem test_hmd5 : readAfter 0x06C (exec .hmd5 (flying .hmd5 { noOperands with
    digest1 := #v[0xDA, 0xB6, 0x9A, 0xD9, 0x8E, 0x28, 0x76, 0x4F, 0x97, 0x7E, 0xE2, 0x48, 0x7E, 0x4F, 0x3F, 0x68, 0x73, 0xB2, 0xA2, 0x97] })) =
    some 0x82AADFE7 := by decide +kernel
/-- T1, T8. -/
theorem test_trunc_offset_1 : readAfter 0x02C (exec .trunc (flying .trunc { noOperands with
    digest2 := #v[0, 1, 2, 3, 4, 5, 6, 7, 8, 9, 10, 11, 12, 13, 14, 15] })) = some 0x01020304 := by decide +kernel
theorem test_trunc_result : readAfter 0x030 (exec .trunc (flying .trunc { noOperands with
    digest2 := #v[0xFF, 0xFF, 0xFF, 0xFF, 0xFF, 0xFF, 0xFF, 0xFF, 0xFF, 0xFF, 0xFF, 0xFF, 0xFF, 0xFF, 0xFF, 0xFF] })) =
    some 483647 := by decide +kernel
/-- F5. -/
theorem test_fmt_high : readAfter 0x034 (exec .fmt (flying .fmt { noOperands with result := 123456 })) = some 0x31323334 := by decide +kernel
theorem test_fmt_low : readAfter 0x038 (exec .fmt (flying .fmt { noOperands with result := 123456 })) = some 0x35360000 := by decide +kernel
/-- H11. -/
theorem test_derive : readAfter 0x034 (exec .derive (flying .derive noOperands)) = some 0x31343531 := by decide +kernel
/-- H11's code is that of counter 0, TIME 29 and STEP 30 (C2). -/
theorem test_totp : readAfter 0x038 (exec .totp (flying .totp { noOperands with time := 29, counter := 7 })) = some 0x30380000 := by
  decide +kernel
/-- Z1. -/
theorem test_zeroize : readAfter 0x028 (exec .zeroize { flying .zeroize noOperands with
    blk := { (flying .zeroize noOperands).blk with offset := 5 } }) = some 0 := by decide +kernel
/-- The step of a word that `withFetchWord` places: F1, the code of a zero RESULT. -/
theorem test_fetch_word : readAfter 0x034 (step (State.reset.withFetchWord 32 5)) = some 0x30303030 := by decide +kernel

/-! ## Witnesses: for each statement with hypotheses, states and operands that meet them, each clause at a bound of its range -/

/-- Right after reset, with command `i` in flight. -/
def inFlight (i : Instr) : State :=
  { State.reset with blk := { Block.reset with cmd := encode i, busy := true, inflight := some ⟨i, Block.reset.snapshot⟩ } }

/-- Right after reset, the host about to run `prog`, with interleaving `sched`. -/
def hosting (prog : List HostOp) (sched : List Event) : State := State.reset.load prog sched

theorem registerInv_reset : RegisterInv Block.reset :=
  ⟨by decide, .inl rfl, by decide, rfl, .inl ⟨rfl, rfl⟩, fun _ => rfl⟩
theorem flightInv_reset : FlightInv Block.reset :=
  ⟨rfl, fun _ h => (nomatch h), fun _ h => (nomatch h), fun _ => rfl, fun _ => rfl, .inl rfl, fun h => (nomatch h)⟩
theorem inv_reset (h : HostState) (sc : List Event) : MachineInv { State.reset with host := h, sched := sc } :=
  ⟨registerInv_reset, flightInv_reset, fun _ => rfl⟩

theorem registerInv_inFlight (i : Instr) : RegisterInv (inFlight i).blk := by
  refine ⟨?_, .inl rfl, ?_, rfl, .inl ⟨rfl, rfl⟩, fun _ => rfl⟩ <;> revert i <;> intro i <;> cases i <;> decide
theorem flightInv_inFlight (i : Instr) : FlightInv (inFlight i).blk := by
  refine ⟨rfl, ?_, ?_, fun _ => rfl, fun _ => rfl, .inl rfl, fun h => (nomatch h)⟩ <;> intro f hf <;> cases hf
  · intro _; exact show (0 : Word).toNat ≤ 256 by decide
  · rfl
theorem inv_inFlight (i : Instr) (h : HostState) (sc : List Event) : MachineInv { inFlight i with host := h, sched := sc } :=
  ⟨registerInv_inFlight i, flightInv_inFlight i, fun h => (nomatch h)⟩

theorem witness_IllegalWordIsRejected : Block.reset.busy = false ∧ illegalWord 0x0 ∧ illegalWord 0x9 ∧ illegalWord 0xF ∧
    illegalWord 0x10 ∧ illegalWord 0xFFFFFFFF ∧ ¬ illegalWord 0x1 ∧ ¬ illegalWord 0x8 := by
  unfold illegalWord; decide
theorem witness_DisassemblyIsTotal : ¬ illegalWord 0x1 ∧ ¬ illegalWord 0x8 ∧ illegalWord 0x0 ∧ illegalWord 0xFFFFFFFF := by
  unfold illegalWord; decide
theorem witness_RegisterMapRoundTrip : Reg.named .ident = true ∧ Reg.named (.key 63) = true ∧ wordOffset 0x1FC ∧
    (Reg.ofOffset 0x1FC).named = true ∧ wordOffset 0x000 ∧ (Reg.ofOffset 0x000).named = true ∧ wordOffset 0xFFC ∧
    reservedOffset 0x03C ∧ reservedOffset 0x054 ∧ reservedOffset 0x0FC ∧ reservedOffset 0x200 ∧ reservedOffset 0xFFC := by
  unfold reservedOffset wordOffset; decide
theorem witness_ResetReadsTheListedValues : wordOffset 0x004 ∧ (0x004 : BitVec 12).toNat ≠ 0x000 ∧ (0x004 : BitVec 12).toNat ≠ 0x010 ∧
    wordOffset 0xFFC := by unfold wordOffset; decide
theorem witness_ResetAbandonsTheCommand : ({ inFlight .totp with sched := [.resetLow] } : State).sched = .resetLow :: [] := rfl
theorem witness_TransactionsInResetHaveNoEffect :
    (∃ s : State, s.rstN = false ∧ s.sched = .host :: [] ∧ s.host.prog = .rd 0x000 15 :: []) ∧
    (∃ s : State, s.rstN = false ∧ s.sched = .host :: [] ∧ s.host.prog = .wr 0x00C 0xF 0x7 :: []) ∧
    (∃ s : State, s.rstN = false ∧ s.sched = .resetHigh :: []) :=
  ⟨⟨{ hosting [.rd 0x000 15] [.host] with rstN := false }, rfl, rfl, rfl⟩,
   ⟨{ hosting [.wr 0x00C 0xF 0x7] [.host] with rstN := false }, rfl, rfl, rfl⟩, ⟨{ State.reset with rstN := false, sched := [.resetHigh] }, rfl, rfl⟩⟩
theorem witness_EngineStepRunsTheCommandInFlight :
    (∃ (s : State) (f : Inflight), s.blk.busy = true ∧ s.blk.inflight = some f ∧ s.sched = .engine :: []) ∧
    (∃ (s : State) (f : Inflight), s.blk.busy = true ∧ s.blk.inflight = some f ∧ s.sched = []) ∧
    (∃ s : State, s.blk.busy = false ∧ s.sched = .engine :: []) :=
  ⟨⟨{ inFlight .zeroize with sched := [.engine] }, _, rfl, rfl, rfl⟩, ⟨inFlight .cdiv, _, rfl, rfl, rfl⟩,
   ⟨{ State.reset with sched := [.engine] }, rfl, rfl⟩⟩

/-- A block idle at reset but for the largest legal KEYLEN. -/
def fullKey : State := { State.reset with blk := { Block.reset with keylen := 256 } }

theorem witness_FetchWordIsRunNext : ∀ i, readsKeylen i = true → fullKey.blk.keylen.toNat ≤ 256 := by intro _ _; decide
theorem witness_IssuedCommandRuns : fullKey.rstN = true ∧ fullKey.blk.busy = false ∧
    (readsKeylen .totp = true → fullKey.blk.keylen.toNat ≤ 256) := by decide
theorem witness_OnlyAlignedWholeWordsAreLegal :
    (State.reset.rstN = true ∧ (hosting [.wr 0xFFC 0xF 1] [.host]).sched = .host :: [] ∧
      (hosting [.wr 0xFFC 0xF 1] [.host]).host.prog = .wr 0xFFC 0xF 1 :: []) ∧
    (hosting [.rd 0xFFF 15] [.host]).host.prog = .rd 0xFFF 15 :: [] ∧
    wordOffset 0xFFC ∧ wordOffset 0x000 ∧ ¬ wordOffset 0x001 ∧ ¬ wordOffset 0xFFF ∧ ¬ (wordOffset 0x000 ∧ (0xE : BitVec 4) = 0xF) := by
  unfold wordOffset; exact ⟨⟨rfl, rfl, rfl⟩, rfl, by decide⟩
theorem witness_ReadReturnsTheRegister : reservedOffset 0x03C ∧ reservedOffset 0x05C ∧ reservedOffset 0x070 ∧ reservedOffset 0x0FC ∧
    reservedOffset 0x200 ∧ reservedOffset 0xFFC ∧ 63 < 64 := by unfold reservedOffset wordOffset; decide
theorem witness_WriteSetsItsRegister : Block.reset.busy = false ∧ 63 < 64 ∧ 255 < 256 := by decide
theorem witness_WritesWhileBusyAreDropped : (inFlight .derive).blk.busy = true ∧ inputOffset 0x00C ∧ inputOffset 0x024 ∧
    inputOffset 0x100 ∧ inputOffset 0x1FC := by unfold inputOffset wordOffset; decide
theorem witness_ReadOnlyAndReservedWritesAreIgnored : readOnlyOffset 0x000 ∧ readOnlyOffset 0x028 ∧ readOnlyOffset 0x038 ∧
    readOnlyOffset 0x040 ∧ readOnlyOffset 0x050 ∧ readOnlyOffset 0x060 ∧ readOnlyOffset 0x06C ∧ reservedOffset 0x03C ∧
    reservedOffset 0xFFC := by
  unfold readOnlyOffset reservedOffset wordOffset; and_intros <;> decide
theorem witness_StepWriteIsLegalized : Block.reset.busy = false ∧ (1 : Word) ≠ 0 ∧ (0xFFFFFFFF : Word) ≠ 0 := by decide
theorem witness_ErrorsAreCheckedInOrder :
    ¬ (wordOffset 0x00D ∧ (0xF : BitVec 4) = 0xF) ∧ ¬ (wordOffset 0x00C ∧ (0x7 : BitVec 4) = 0xF) ∧
    (wordOffset 0x1FC ∧ (inFlight .cdiv).blk.busy = true ∧ inputOffset 0x1FC) ∧
    (Block.reset.busy = false ∧ illegalWord 0x16) ∧
    (({ Block.reset with keylen := 257 } : Block).busy = false ∧ 256 < ({ Block.reset with keylen := 257 } : Block).keylen.toNat) := by
  unfold inputOffset illegalWord wordOffset; decide
theorem witness_exec_answers : ∀ i, ∃ t, exec i (inFlight i) = .next t := fun i => ⟨_, exec_eq i _⟩
theorem witness_KeylenRangeIsChecked : Block.reset.busy = false ∧ 256 < ({ Block.reset with keylen := 257 } : Block).keylen.toNat ∧
    ({ Block.reset with keylen := 257 } : Block).busy = false ∧ fullKey.blk.keylen.toNat ≤ 256 := by decide
theorem witness_AcceptanceTakesASnapshot : fullKey.blk.busy = false ∧ (readsKeylen .derive = true → fullKey.blk.keylen.toNat ≤ 256) := by
  decide
theorem witness_InterruptIsRaisedAndCleared : (0x6 : Word).toNat / 2 % 4 = 3 ∧ (0xE : Word).toNat / 2 % 4 = 3 ∧
    Block.reset.busy = false ∧ illegalWord 0x9 ∧ (Block.reset.memWrite 0x00C 0x1).busy = true ∧
    (Block.reset.memWrite 0x00C 0x9).busy = false ∧
    (({ Block.reset with done := true } : Block).done = true ∧ ({ Block.reset with done := true } : Block).err = false ∧
      (0x2 : Word).toNat / 2 % 2 = 1) ∧
    (({ Block.reset with err := true } : Block).err = true ∧ ({ Block.reset with err := true } : Block).done = false ∧
      (0x4 : Word).toNat / 4 % 2 = 1) ∧
    256 < ({ Block.reset with keylen := 257 } : Block).keylen.toNat := by
  unfold illegalWord; decide
theorem witness_KeyIsNeverRead : (hosting [.rd 0x100 0] [.host]).sched = .host :: [] := rfl
theorem witness_WindowIsAtBase : ∃ n a, windowOffset n = some a ∧ n = busAddress a := by
  refine ⟨busAddress 0xFFF, 0xFFF, ?_, rfl⟩
  simp [windowOffset, busAddress]

theorem witness_CdivCompletes : (inFlight .cdiv).blk.inflight = some ⟨.cdiv, noOperands⟩ := rfl
theorem witness_Hsha1Completes : (flying .hsha1 { noOperands with keylen := 64 }).blk.inflight = some ⟨.hsha1, { noOperands with keylen := 64 }⟩ ∧
    (flying .hsha1 { noOperands with keylen := 65 }).blk.inflight = some ⟨.hsha1, { noOperands with keylen := 65 }⟩ := ⟨rfl, rfl⟩
theorem witness_Hmd5Completes : (inFlight .hmd5).blk.inflight = some ⟨.hmd5, noOperands⟩ := rfl
theorem witness_TruncCompletes : (inFlight .trunc).blk.inflight = some ⟨.trunc, noOperands⟩ := rfl
theorem witness_FmtCompletes : (inFlight .fmt).blk.inflight = some ⟨.fmt, noOperands⟩ := rfl
theorem witness_DeriveCompletes : (inFlight .derive).blk.inflight = some ⟨.derive, noOperands⟩ := rfl
theorem witness_TotpCompletes : (inFlight .totp).blk.inflight = some ⟨.totp, noOperands⟩ := rfl
theorem witness_ZeroizeCompletes : (inFlight .zeroize).blk.inflight = some ⟨.zeroize, noOperands⟩ := rfl
theorem witness_CommandFrame : (∃ t, exec .cdiv (inFlight .cdiv) = .next t) ∧ (0x028 : BitVec 12) ≠ 0x008 ∧
    writesReg .cdiv (Reg.ofOffset 0x028) = false ∧ writesReg .zeroize (Reg.ofOffset 0x024) = false ∧
    writesReg .totp (Reg.ofOffset 0x01C) = false ∧ Instr.cdiv ≠ .zeroize := ⟨⟨_, exec_eq _ _⟩, by decide⟩
/-- Keys that differ in the first byte past KEYLEN. -/
theorem witness_CommandReadsOnlyItsOperands :
    sameReads .derive { noOperands with keylen := 1, key := (Vector.replicate 256 0).set 1 0x55 } { noOperands with keylen := 1, result := 9 } ∧
    sameReads .cdiv { noOperands with counter := 5 } noOperands ∧ sameReads .zeroize { noOperands with step := 1 } noOperands ∧
    sameReads .hmd5 { noOperands with keylen := 300 } noOperands ∧ sameReads .trunc { noOperands with result := 1 } noOperands ∧
    sameReads .fmt { noOperands with counter := 1 } noOperands ∧ sameReads .totp { noOperands with counter := 1 } noOperands ∧
    sameReads .hsha1 { noOperands with step := 1 } noOperands := by
  unfold sameReads; decide +kernel
theorem witness_DividerIsExact : noOperands.step ≠ 0 ∧ ({ noOperands with step := 1, time := 0xFFFFFFFFFFFFFFFF } : Operands).step ≠ 0 := by decide
theorem witness_OffsetTakesFourValues :
    ((0x00 : Byte)[2] = false ∧ (0x00 : Byte)[0] = false) ∧ ((0x01 : Byte)[2] = false ∧ (0x01 : Byte)[0] = true) ∧
    ((0x04 : Byte)[2] = true ∧ (0x04 : Byte)[0] = false) ∧ ((0xFF : Byte)[2] = true ∧ (0xFF : Byte)[0] = true) ∧
    (5 + 3 < 16 ∧ (offsetOf (Vector.replicate 16 0xFF)).toNat = 5) ∧ (offsetOf (Vector.replicate 16 0x00)).toNat = 0 := by decide
theorem witness_TruncationArithmetic : 999999 ≤ 999999 ∧ 0 ≤ 999999 := by decide
theorem witness_DigitsAreDecimal : (999999 : BitVec 20).toNat ≤ 999999 ∧ (0 : BitVec 20).toNat ≤ 999999 := by decide
theorem witness_CounterBytesAreBigEndian : 0 < 8 ∧ 7 < 8 := by decide
theorem witness_Sha1MessageSchedule : ([] : List Byte).length < 2 ^ 61 ∧ (List.replicate 320 (0 : Byte)).length < 2 ^ 61 ∧
    (0 + 1 + 55 + 8) % 64 = 0 ∧ 15 < 16 ∧ 16 ≤ 16 ∧ 79 < 80 := by
  rw [List.length_replicate]; decide
theorem witness_Md5MessageWords : (0 + 1 + 55 + 8) % 64 = 0 ∧ (56 + 1 + 63 + 8) % 64 = 0 ∧ 15 < 16 := by decide
theorem witness_HmacKeyPreparation : 64 < (List.replicate 65 (0 : Byte)).length ∧ ([] : List Byte).length + 64 ≤ 64 ∧
    (List.replicate 63 (1 : Byte)).length + 1 ≤ 64 := by
  rw [List.length_replicate, List.length_replicate]; decide
theorem witness_DeriveEqualsItsStages : withoutReset [] ∧ withoutReset [.engine, .host, .host, .engine] ∧ fullKey.rstN = true ∧
    fullKey.blk.busy = false ∧ fullKey.blk.keylen.toNat ≤ 256 := by unfold withoutReset; decide
theorem witness_TotpEqualsCdivThenDerive : withoutReset [] ∧ withoutReset [.engine, .host, .host, .engine] ∧ fullKey.rstN = true ∧
    fullKey.blk.busy = false ∧ fullKey.blk.keylen.toNat ≤ 256 := by unfold withoutReset; decide
theorem witness_StepKeepsInv : (∃ s t, MachineInv s ∧ s.blk.busy = false ∧ step s = .next t) ∧
    ∃ s t, MachineInv s ∧ s.blk.busy = true ∧ step s = .next t :=
  ⟨⟨_, _, inv_reset (hosting [.wr 0x00C 0xF 0x1] []).host [], rfl, rfl⟩,
   ⟨{ inFlight .cdiv with host := HostState.start, sched := [.engine] }, _, inv_inFlight .cdiv _ _, rfl, exec_eq .cdiv _⟩⟩
theorem witness_CommandInFlightCompletes : ∃ s, MachineInv s ∧ s.blk.busy = true ∧ s.sched = [.host, .resetHigh, .engine] :=
  ⟨_, inv_inFlight .totp HostState.start [.host, .resetHigh, .engine], rfl, rfl⟩
theorem witness_PollWaitsForIdle :
    (∃ s : State, s.rstN = true ∧ s.host.prog = .poll :: [] ∧ s.sched = .host :: [] ∧ s.blk.busy = true) ∧
    ∃ s : State, s.rstN = true ∧ s.host.prog = .poll :: [] ∧ s.sched = .host :: [] ∧ s.blk.busy = false :=
  ⟨⟨(inFlight .fmt).load [.poll] [.host], rfl, rfl, rfl, rfl⟩, ⟨hosting [.poll] [.host], rfl, rfl, rfl, rfl⟩⟩
theorem witness_HostCannotDisturbACommand : ∃ s, MachineInv s ∧ s.blk.busy = true ∧ s.sched = .host :: [] ∧
    s.host.prog = [.wr 0x100 0xF 0xFFFFFFFF] :=
  ⟨_, inv_inFlight .derive (hosting [.wr 0x100 0xF 0xFFFFFFFF] []).host [.host], rfl, rfl, rfl⟩
theorem witness_RacingCounterWrite : ∃ s : State, s.rstN = true ∧ s.blk.busy = true ∧ s.blk.inflight = some ⟨.derive, noOperands⟩ ∧
    s.host.prog = [.wr 0x020 0xF 0xFFFFFFFF] :=
  ⟨(inFlight .derive).load [.wr 0x020 0xF 0xFFFFFFFF] [], rfl, rfl, rfl, rfl⟩
theorem witness_BusyChangesOnlySo :
    (∃ s t, MachineInv s ∧ step s = .next t ∧ s.blk.busy = false ∧ t.blk.busy = true) ∧
    (∃ s t, MachineInv s ∧ step s = .next t ∧ s.blk.busy = true ∧ t.blk.busy = false ∧ s.sched = .engine :: []) ∧
    ∃ s t, MachineInv s ∧ step s = .next t ∧ s.blk.busy = true ∧ t.blk.busy = false ∧ s.sched = .resetLow :: [] :=
  ⟨⟨_, _, inv_reset (hosting [.wr 0x00C 0xF 0x8] []).host [], rfl, rfl, rfl⟩,
   ⟨{ inFlight .cdiv with host := HostState.start, sched := [.engine] }, _, inv_inFlight .cdiv _ _, exec_eq .cdiv _, rfl, rfl, rfl⟩,
   ⟨_, _, inv_inFlight .cdiv HostState.start [.resetLow], rfl, rfl, rfl, rfl⟩⟩

/-- WERR set, the host about to clear it. -/
def clearing : State := { hosting [.wr 0x008 0xF 0x8] [] with blk := { Block.reset with werr := true } }

theorem witness_WriteErrorIsSticky :
    (∃ t, step clearing = .next t ∧ clearing.blk.werr = true ∧ t.blk.werr = false) ∧
    ∃ t, step { clearing with sched := [.resetLow] } = .next t ∧ clearing.blk.werr = true ∧ t.blk.werr = false :=
  ⟨⟨_, rfl, rfl, rfl⟩, ⟨_, rfl, rfl, rfl⟩⟩
theorem witness_KeylenChangesOnlySo :
    ∃ s t, MachineInv s ∧ step s = .next t ∧ t.blk.keylen ≠ s.blk.keylen ∧ s.host.prog = [.wr 0x014 0xF 0xFFFFFFFF] :=
  ⟨_, _, inv_reset (hosting [.wr 0x014 0xF 0xFFFFFFFF] []).host [], rfl, by decide, rfl⟩
theorem witness_LdkeyLoadsTheSecret : State.reset.rstN = true ∧ State.reset.blk.busy = false ∧ (Stmt.ldkey []).wf = true ∧
    (Stmt.ldkey (List.replicate 256 255)).wf = true := by decide +kernel
theorem witness_Ld64LoadsBothHalves : State.reset.rstN = true ∧ State.reset.blk.busy = false ∧ 2 ^ 64 - 1 < 2 ^ 64 := by decide

end Sys2Proof.Tests
end

section
/-! The identity register at offset 0 (10_state.md R21). -/

namespace Sys2Proof.Machine

/-- Offset 0 holds ID, which reads the same in every block. -/
@[simp] theorem memRead_ident (b : Block) : b.memRead 0x000 = Config.idValue := by
  rw [Block.memRead, ofOffset_ident, Block.readReg]

/-- ID is no input register, so a write there is never dropped with WERR, and storing to it keeps the block (20_memory.md R64). -/
@[simp] theorem memWrite_ident (b : Block) (v : Word) : b.memWrite 0x000 v = b := by
  have hstored : b.writeReg .ident v = b.storeReg .ident v := writeReg_stored v (.inl rfl)
  rw [Block.memWrite, ofOffset_ident, hstored, Block.storeReg]

/-- Settles O20: the read and the write of ID hold of any block, the reset block among them. -/
theorem identIsConstant : Obligations.IdentIsConstant := by
  unfold Obligations.IdentIsConstant
  intro b v
  exact ⟨memRead_ident b, memWrite_ident b v, memRead_ident State.reset.blk⟩

end Sys2Proof.Machine
end

section
/-! Writes of the register window: which offsets name an input register, which ignore writes, and what the others store
(20_memory.md R63 to R67). -/

namespace Sys2Proof.Machine

/-! ## Runs of consecutive offsets -/

/-- A word offset among `n` consecutive ones from `base` is `base + 4i` for one of the `n` indices. -/
theorem eq_ofNat_of_wordOffset {a : BitVec 12} {base n : Nat} (ha : wordOffset a) (hbase : base % 4 = 0)
    (hlo : base ≤ a.toNat) (hhi : a.toNat < base + 4 * n) : ∃ i : Fin n, a = BitVec.ofNat 12 (base + 4 * i.val) := by
  unfold wordOffset at ha
  have hidx : base + 4 * ((a.toNat - base) / 4) = a.toNat := by omega
  exact ⟨⟨(a.toNat - base) / 4, by omega⟩, by simp [hidx]⟩

/-! ## Input offsets (R65) -/

/-- CMD to COUNTER_HI are input registers. -/
theorem isInput_cmd_to_counterHi : ∀ i : Fin 7, isInput (Reg.ofOffset (BitVec.ofNat 12 (0x00C + 4 * i.val))) = true := by
  decide

/-- Every input offset names an input register. -/
theorem isInput_ofOffset {a : BitVec 12} (h : inputOffset a) : isInput (Reg.ofOffset a) = true := by
  obtain ⟨hword, ⟨hlo, hhi⟩ | ⟨hlo, hhi⟩⟩ := h
  · obtain ⟨i, rfl⟩ := eq_ofNat_of_wordOffset (n := 7) hword rfl hlo (by omega)
    exact isInput_cmd_to_counterHi i
  · obtain ⟨i, rfl⟩ := eq_ofNat_of_wordOffset (n := 64) hword rfl hlo (by omega)
    rw [ofOffset_key, isInput]

/-- A write to an input offset while BUSY = 1 sets WERR and does nothing else. -/
theorem memWrite_dropped {b : Block} {a : BitVec 12} (v : Word) (ha : inputOffset a) (hb : b.busy = true) :
    b.memWrite a v = { b with werr := true } := by
  rw [Block.memWrite, writeReg_dropped v (isInput_ofOffset ha) hb, Block.dropWrite]

/-! ## Offsets that ignore writes (R64) -/

/-- The read-only registers, and the reserved offsets. -/
def ignoresWrites : Reg → Bool
  | .ident | .offset | .header | .result | .codeLo | .codeHi | .digest1 _ | .digest2 _ | .reserved => true
  | .ctrl | .status | .cmd | .step | .keylen | .timeLo | .timeHi | .counterLo | .counterHi | .key _ => false

/-- OFFSET to CODE_HI ignore writes. -/
theorem ignoresWrites_offset_to_codeHi :
    ∀ i : Fin 5, ignoresWrites (Reg.ofOffset (BitVec.ofNat 12 (0x028 + 4 * i.val))) = true := by
  decide

/-- No register stands at a reserved offset (10_state.md R42). -/
theorem ofOffset_reserved {a : BitVec 12} (h : reservedOffset a) : Reg.ofOffset a = .reserved := by
  obtain ⟨-, hrange⟩ := h
  have hdigest1 : ¬ (0x040 ≤ a.toNat ∧ a.toNat < 0x054) := by omega
  have hdigest2 : ¬ (0x060 ≤ a.toNat ∧ a.toNat < 0x070) := by omega
  have hkey : ¬ (0x100 ≤ a.toNat ∧ a.toNat < 0x200) := by omega
  unfold Reg.ofOffset
  split
  case h_16 => rw [dif_neg hdigest1, dif_neg hdigest2, dif_neg hkey]
  all_goals omega

/-- Every read-only offset names a register that ignores writes. -/
theorem ignoresWrites_of_readOnlyOffset {a : BitVec 12} (h : readOnlyOffset a) : ignoresWrites (Reg.ofOffset a) = true := by
  obtain ⟨hword, hident | ⟨hlo, hhi⟩ | ⟨hlo, hhi⟩ | ⟨hlo, hhi⟩⟩ := h
  · rw [BitVec.eq_of_toNat_eq (y := 0x000) hident, ofOffset_ident, ignoresWrites]
  · obtain ⟨i, rfl⟩ := eq_ofNat_of_wordOffset (n := 5) hword rfl hlo (by omega)
    exact ignoresWrites_offset_to_codeHi i
  · obtain ⟨i, rfl⟩ := eq_ofNat_of_wordOffset (n := 5) hword rfl hlo (by omega)
    rw [ofOffset_digest1, ignoresWrites]
  · obtain ⟨i, rfl⟩ := eq_ofNat_of_wordOffset (n := 4) hword rfl hlo (by omega)
    rw [ofOffset_digest2, ignoresWrites]

/-- What ignores writes keeps the block, BUSY or not: it is no input, so the write is not dropped with WERR, and nothing is stored. -/
theorem writeReg_ignored (b : Block) {r : Reg} (v : Word) (h : ignoresWrites r = true) : b.writeReg r v = b := by
  cases r with
  | ident | offset | header | result | codeLo | codeHi | digest1 | digest2 | reserved => exact writeReg_stored v (.inl rfl)
  | ctrl | status | cmd | step | keylen | timeLo | timeHi | counterLo | counterHi | key => cases h

/-- Settles O17: every such offset names a register that ignores writes, or none. -/
theorem readOnlyAndReservedWritesAreIgnored : Obligations.ReadOnlyAndReservedWritesAreIgnored := by
  unfold Obligations.ReadOnlyAndReservedWritesAreIgnored
  intro b a v h
  rw [Block.memWrite]
  apply writeReg_ignored
  obtain hro | hres := h
  · exact ignoresWrites_of_readOnlyOffset hro
  · rw [ofOffset_reserved hres, ignoresWrites]

/-! ## CTRL, STATUS and STEP (R63, R66, R67) -/

/-- Bit `k` of a word, read off its value. -/
theorem getElem_eq_decide (v : Word) {k : Nat} (hk : k < 32) : v[k] = decide (v.toNat / 2 ^ k % 2 = 1) := by
  rw [BitVec.getElem_eq_testBit_toNat, Nat.testBit_eq_decide_div_mod_eq]

/-- A CTRL write is never dropped, and sets IE to bit 0. -/
theorem memWrite_ctrl (b : Block) (v : Word) : b.memWrite 0x004 v = { b with ctrlIe := decide (v.toNat % 2 = 1) } := by
  have hie : v[0] = decide (v.toNat % 2 = 1) := by simpa using getElem_eq_decide v (k := 0) (by omega)
  rw [Block.memWrite, ofOffset_ctrl, writeReg_stored v (.inl rfl), Block.storeReg, hie]

/-- A STATUS write is never dropped, and clears the flags whose bit is 1. -/
theorem memWrite_status (b : Block) (v : Word) : b.memWrite 0x008 v = b.w1c v := by
  rw [Block.memWrite, ofOffset_status, writeReg_stored v (.inl rfl), Block.storeReg]

/-- A STEP write to the idle block stores any value but 0. -/
theorem memWrite_step {b : Block} (v : Word) (hb : b.busy = false) :
    b.memWrite 0x010 v = if v = 0 then b else { b with step := v } := by
  rw [Block.memWrite, ofOffset_step, writeReg_stored v (.inr hb), Block.storeReg]

/-- A flag written with bit `k` stays 1 exactly when it was 1 and the bit is 0. -/
theorem cleared_by_bit_iff (f : Bool) (v : Word) {k : Nat} (hk : k < 32) :
    (f && !v[k]) = true ↔ f = true ∧ v.toNat / 2 ^ k % 2 = 0 := by
  simp [getElem_eq_decide v hk]

/-- Settles O18: STATUS is no input, so its write is `w1c`, whose three flags are read bit by bit. -/
theorem statusWriteClearsFlags : Obligations.StatusWriteClearsFlags := by
  unfold Obligations.StatusWriteClearsFlags
  intro b v
  exact ⟨b.done && !v[1], b.err && !v[2], b.werr && !v[3], memWrite_status b v, cleared_by_bit_iff b.done v (by omega),
    cleared_by_bit_iff b.err v (by omega), cleared_by_bit_iff b.werr v (by omega)⟩

/-- Settles O19: the two cases of `memWrite_step`. -/
theorem stepWriteIsLegalized : Obligations.StepWriteIsLegalized := by
  unfold Obligations.StepWriteIsLegalized
  intro b v hb
  rw [memWrite_step v hb]
  exact ⟨fun hv => if_neg hv, fun hv => if_pos hv⟩

/-! ## Writes while a command is in flight (R65) -/

/-- Storing to a register that is no input keeps BUSY, the command in flight and the registers it may read. -/
theorem storeReg_keeps_flight (b : Block) {r : Reg} (v : Word) (h : isInput r = false) :
    (b.storeReg r v).busy = b.busy ∧ (b.storeReg r v).inflight = b.inflight ∧ (b.storeReg r v).snapshot = b.snapshot := by
  cases r with
  | cmd | step | keylen | timeLo | timeHi | counterLo | counterHi | key => cases h
  | ctrl | status => exact ⟨rfl, rfl, rfl⟩
  | ident | offset | header | result | codeLo | codeHi | digest1 | digest2 | reserved => exact ⟨rfl, rfl, rfl⟩

/-- No write transaction disturbs the command in flight or a register it may read. -/
theorem busWrite_keeps_flight {b : Block} (hb : b.busy = true) (n : Bool) (a : BitVec 12) (strb : BitVec 4) (v : Word) :
    (busWrite n b a strb v).busy = true ∧ (busWrite n b a strb v).inflight = b.inflight ∧
      (busWrite n b a strb v).snapshot = b.snapshot := by
  obtain hsame | ⟨-, -, -, -, hdrop⟩ | ⟨-, -, hfree, hstore⟩ := busWrite_cases n b a strb v
  · rw [hsame]
    exact ⟨hb, rfl, rfl⟩
  · rw [hdrop]
    exact ⟨hb, rfl, rfl⟩
  · have hinput : isInput (Reg.ofOffset a) = false := hfree.resolve_right (by simp [hb])
    rw [hstore, ← hb]
    exact storeReg_keeps_flight b v hinput

/-- Settles O16: inputs are dropped, CTRL and STATUS are no inputs, and no other write reaches what the command in flight reads. -/
theorem writesWhileBusyAreDropped : Obligations.WritesWhileBusyAreDropped := by
  unfold Obligations.WritesWhileBusyAreDropped
  intro b a v hb
  exact ⟨fun ha => memWrite_dropped v ha hb, memWrite_ctrl b v, memWrite_status b v,
    fun n strb => busWrite_keeps_flight hb n a strb v⟩

end Sys2Proof.Machine
end

section
/-! Writes of an illegal word to CMD (30_encoding.md R94, 60_exceptions.md R224). -/

namespace Sys2Proof.Machine

/-- Offset 0x00C reads the stored command word (20_memory.md R62). -/
@[simp] theorem memRead_cmd (b : Block) : b.memRead 0x00C = b.cmd := by
  rw [Block.memRead, ofOffset_cmd, Block.readReg]

/-- An illegal word written to CMD of the idle block is stored and recorded as ILLEGAL_CMD; nothing else changes. -/
theorem memWrite_cmd_illegal {b : Block} {w : Word} (hb : b.busy = false) (hw : illegalWord w) :
    b.memWrite 0x00C w = { b with cmd := w, done := false, err := true, errcode := errIllegalCmd } := by
  rw [memWrite_cmd w hb, accept_illegal _ hw, Block.raise, Block.clearForAccept]

/-- Accepting a legal word leaves ERRCODE at KEYLEN_RANGE (rejected) or at 0 (started). -/
theorem accept_errcode_of_legal (b : Block) {w : Word} (hw : ¬ illegalWord w) :
    (b.accept w).errcode = errKeylenRange ∨ (b.accept w).errcode = 0 := by
  obtain ⟨hill, -⟩ | ⟨i, -, -, -, hrange⟩ | ⟨i, -, -, hstart⟩ := accept_cases b w
  · exact absurd hill hw
  · left
    rw [hrange, Block.raise_errcode]
  · right
    rw [hstart, Block.start_errcode, Block.clearForAccept_errcode]

/-- A legal word is never answered with ILLEGAL_CMD. -/
theorem accept_errcode_ne_illegal (b : Block) {w : Word} (hw : ¬ illegalWord w) :
    (b.accept w).errcode ≠ errIllegalCmd := by
  obtain hcode | hcode := accept_errcode_of_legal b hw <;> rw [hcode] <;> decide

/-- Settles O3: a CMD write of the idle block is an acceptance attempt, whose outcomes by the word's legality are the lemmas above. -/
theorem illegalWordIsRejected : Obligations.IllegalWordIsRejected := by
  unfold Obligations.IllegalWordIsRejected
  intro b w hb
  constructor
  · intro hw
    have hwrite := memWrite_cmd_illegal hb hw
    exact ⟨hwrite, by rw [memRead_cmd, hwrite]⟩
  · intro hw
    rw [memWrite_cmd w hb]
    exact accept_errcode_ne_illegal _ hw

end Sys2Proof.Machine
end

section
/-! SHA-1's padding, its blocks, and its message schedule (41_hmac_sha1.md R120, R122). -/

namespace Sys2Proof.Machine

/-! ## Padding, for either length field (R120, R150) -/

/-- The zero padding fills the last block. -/
theorem padZeros_fills (len : Nat) : (len + 1 + padZeros len + 8) % 64 = 0 := by
  unfold padZeros
  omega

/-- No smaller number of zeros fills the last block. -/
theorem padZeros_le {len y : Nat} (h : (len + 1 + y + 8) % 64 = 0) : padZeros len ≤ y := by
  unfold padZeros
  omega

theorem padWith_eq (lengthField : DWord → List Byte) (m : List Byte) :
    padWith lengthField m =
      m ++ [0x80] ++ List.replicate (padZeros m.length) 0 ++ lengthField (BitVec.ofNat 64 (8 * m.length)) := by
  simp [padWith]

@[simp] theorem length_be64 (x : DWord) : (be64 x).length = 8 := rfl

/-- With a length field of 8 bytes the padded message is whole blocks. -/
theorem length_padWith_mod {lengthField : DWord → List Byte} (hfield : ∀ x, (lengthField x).length = 8) (m : List Byte) :
    (padWith lengthField m).length % 64 = 0 := by
  have hlen : (padWith lengthField m).length = m.length + 1 + padZeros m.length + 8 := by
    simp only [padWith_eq, List.length_append, List.length_singleton, List.length_replicate, hfield]
  rw [hlen, padZeros_fills]

/-! ## Cutting into blocks -/

/-- The blocks, put together again, are the bytes they were cut from. -/
theorem blocks64_flatten (n : Nat) (m : List Byte) : (blocks64 n m).flatten = m.take (64 * n) := by
  induction n generalizing m with
  | zero => simp [blocks64]
  | succ n ih => rw [blocks64, List.flatten_cons, ih, ← List.take_add, Nat.mul_succ, Nat.add_comm]

/-- Every block cut from enough bytes is full. -/
theorem length_of_mem_blocks64 {n : Nat} {m x : List Byte} (hm : 64 * n ≤ m.length) (hx : x ∈ blocks64 n m) :
    x.length = 64 := by
  induction n generalizing m with
  | zero => cases hx
  | succ n ih =>
    rw [blocks64, List.mem_cons] at hx
    obtain rfl | hrest := hx
    · rw [List.length_take]
      omega
    · exact ih (by rw [List.length_drop]; omega) hrest

/-! ## The words of a block -/

@[simp] theorem length_wordsBE : ∀ bs : List Byte, (wordsBE bs).length = bs.length / 4
  | [] | [_] | [_, _] | [_, _, _] => by simp [wordsBE]
  | _ :: _ :: _ :: _ :: rest => by
    simp only [wordsBE, List.length_cons, length_wordsBE rest]
    omega

/-- Word `t` is the four bytes from `4t` on, read big-endian. -/
theorem wordsBE_getElem? : ∀ (bs : List Byte) (t : Nat) (h : 4 * t + 3 < bs.length),
    (wordsBE bs)[t]? = some (be32 bs[4 * t] bs[4 * t + 1] bs[4 * t + 2] bs[4 * t + 3])
  | [], _, h | [_], _, h | [_, _], _, h | [_, _, _], _, h => by
    simp only [List.length_cons, List.length_nil] at h
    omega
  | _ :: _ :: _ :: _ :: _, 0, _ => rfl
  | _ :: _ :: _ :: _ :: rest, t + 1, h => by
    have hrest : 4 * t + 3 < rest.length := by
      simp only [List.length_cons] at h
      omega
    simpa [wordsBE, Nat.mul_succ] using wordsBE_getElem? rest t hrest

/-! ## The schedule's recurrence -/

/-- R122's W_t, from the words of `W` that stand 3, 8, 14 and 16 places before it. -/
def recurrenceWord (W : List Word) (t : Nat) : Word :=
  rotl32 (W.getD (t - 3) 0 ^^^ W.getD (t - 8) 0 ^^^ W.getD (t - 14) 0 ^^^ W.getD (t - 16) 0) 1

/-- The recurrence reads only words before place `t`, so it may be read in any schedule that goes on from there. -/
theorem recurrenceWord_of_prefix {U W : List Word} (hUW : U <+: W) {t : Nat} (hlo : 16 ≤ t) (hhi : t ≤ U.length) :
    recurrenceWord W t = recurrenceWord U t := by
  obtain ⟨V, rfl⟩ := hUW
  have hread : ∀ k, 0 < k → (U ++ V).getD (t - k) 0 = U.getD (t - k) 0 := fun k hk =>
    List.getD_append _ _ _ _ (by omega)
  simp only [recurrenceWord, hread, Nat.reduceLT]

/-- Place `k` of the newest-first list stands `k + 1` places before the end of the words in order. -/
theorem getD_reverse_length_sub {ws : List Word} {k : Nat} (h : k < ws.length) :
    ws.reverse.getD (ws.length - (k + 1)) 0 = ws.getD k 0 := by
  rw [List.getD_eq_getElem?_getD, List.getElem?_reverse (by omega), List.getD_eq_getElem?_getD]
  congr 2
  omega

/-- One extension puts the recurrence's word in front, once there are 16 words. -/
theorem sha1Extend_succ (n : Nat) {ws : List Word} (h : 16 ≤ ws.length) :
    sha1Extend (n + 1) ws = sha1Extend n (recurrenceWord ws.reverse ws.length :: ws) := by
  have hword : ∀ k, k < 16 → ws.reverse.getD (ws.length - (k + 1)) 0 = ws.getD k 0 := fun k hk =>
    getD_reverse_length_sub (by omega)
  rw [sha1Extend, recurrenceWord, hword 2 (by omega), hword 7 (by omega), hword 13 (by omega), hword 15 (by omega)]

@[simp] theorem length_sha1Extend (n : Nat) (ws : List Word) : (sha1Extend n ws).length = ws.length + n := by
  induction n generalizing ws with
  | zero => rfl
  | succ n ih =>
    rw [sha1Extend, ih, List.length_cons]
    omega

/-- Extending keeps the words there were. -/
theorem suffix_sha1Extend (n : Nat) (ws : List Word) : ws <:+ sha1Extend n ws := by
  induction n generalizing ws with
  | zero => exact List.suffix_rfl
  | succ n ih => exact (List.suffix_cons _ _).trans (ih _)

/-- In order, the words there were stand first, each at its place. -/
theorem sha1Extend_reverse_getElem?_old (n : Nat) {t : Nat} {ws : List Word} (h : t < ws.length) :
    (sha1Extend n ws).reverse[t]? = ws.reverse[t]? := by
  obtain ⟨added, hadded⟩ := suffix_sha1Extend n ws
  rw [← hadded, List.reverse_append, List.getElem?_append_left (by simpa using h)]

/-- Every added word is the recurrence's, read in the whole schedule. -/
theorem sha1Extend_recurrence {n t : Nat} {ws : List Word} (h : 16 ≤ ws.length) (hlo : ws.length ≤ t) (hhi : t < ws.length + n) :
    (sha1Extend n ws).reverse[t]? = some (recurrenceWord (sha1Extend n ws).reverse t) := by
  induction n generalizing ws with
  | zero => omega
  | succ n ih =>
    rw [sha1Extend_succ n h]
    obtain rfl | hlt := Nat.eq_or_lt_of_le hlo
    · have hold : ws.reverse <+: (sha1Extend n (recurrenceWord ws.reverse ws.length :: ws)).reverse :=
        List.reverse_prefix.mpr ((List.suffix_cons _ _).trans (suffix_sha1Extend n _))
      rw [recurrenceWord_of_prefix hold h (by simp), sha1Extend_reverse_getElem?_old n (by simp)]
      simp
    · exact ih (by simp; omega) (by simpa using hlt) (by simp; omega)

/-! ## The schedule of a block -/

theorem length_sha1Schedule {block : List Byte} (h : block.length = 64) : (sha1Schedule block).length = 80 := by
  simp [sha1Schedule, h]

/-- The first 16 words are the block's. -/
theorem sha1Schedule_first {block : List Byte} (h : block.length = 64) {t : Nat} (ht : t < 16) :
    (sha1Schedule block)[t]? = (wordsBE block)[t]? := by
  rw [sha1Schedule, sha1Extend_reverse_getElem?_old 64 (by simp [h, ht]), List.reverse_reverse]

/-- The other 64 follow the recurrence. -/
theorem sha1Schedule_recurrence {block : List Byte} (h : block.length = 64) {t : Nat} (hlo : 16 ≤ t) (hhi : t < 80) :
    (sha1Schedule block)[t]? = some (recurrenceWord (sha1Schedule block) t) := by
  have hwords : (wordsBE block).reverse.length = 16 := by simp [h]
  exact sha1Extend_recurrence (by omega) (by omega) (by omega)

/-- Settles O43: the least zero padding makes whole blocks, `wordsBE` reads a block's 16 words, and the recurrence holds of each
added word by induction on how many are added. -/
theorem sha1MessageSchedule : Obligations.Sha1MessageSchedule := by
  unfold Obligations.Sha1MessageSchedule
  constructor
  · intro m _
    have hwhole : 64 * ((pad1 m).length / 64) = (pad1 m).length :=
      Nat.mul_div_cancel' (Nat.dvd_of_mod_eq_zero (length_padWith_mod length_be64 m))
    refine ⟨padZeros m.length, padWith_eq be64 m, padZeros_fills _, fun y => padZeros_le, ?_, ?_⟩
    · rw [blocks64_flatten, hwhole, List.take_length]
    · exact fun x hx => length_of_mem_blocks64 hwhole.le hx
  · intro x
    have hblock : x.toList.length = 64 := x.length_toList
    have hlength := length_sha1Schedule hblock
    refine ⟨hlength, fun t ht => ?_, fun t hlo hhi => ?_⟩
    · rw [sha1Schedule_first hblock ht, wordsBE_getElem? _ _ (by omega)]
      simp only [Vector.getElem_toList]
    · have hread : ∀ k, 0 < k → (sha1Schedule x.toList)[t - k]? = some ((sha1Schedule x.toList).getD (t - k) 0) :=
        fun k hk => by rw [List.getD_eq_getElem _ _ (by omega), List.getElem?_eq_getElem]
      exact ⟨_, _, _, _, hread 3 (by omega), hread 8 (by omega), hread 14 (by omega), hread 16 (by omega),
        sha1Schedule_recurrence hblock hlo hhi⟩

end Sys2Proof.Machine
end

section
/-! MD5's padding and block words (42_hmac_md5.md R150), from those of SHA-1. -/

namespace Sys2Proof.Machine

/-- A word with its four bytes in the other order. -/
def byteSwap (w : Word) : Word := le32 (beByte w 0) (beByte w 1) (beByte w 2) (beByte w 3)

/-- Byte `i`, counted from the most significant, as a number. -/
theorem beByte_toNat (w : Word) (i : Fin 4) : (beByte w i).toNat = w.toNat / 2 ^ (24 - 8 * i.val) % 256 := by
  rw [beByte, BitVec.extractLsb'_toNat, Nat.shiftRight_eq_div_pow]

/-- The bytes of a word read big-endian are the bytes it was read from, in order. -/
theorem beByte_be32 (a b c d : Byte) (i : Fin 4) : beByte (be32 a b c d) i = #v[a, b, c, d][i] := by
  have := a.isLt; have := b.isLt; have := c.isLt; have := d.isLt
  apply BitVec.eq_of_toNat_eq
  rw [beByte_toNat, be32_toNat, beValue]
  fin_cases i <;> simp <;> omega

/-- Swapping turns the big-endian reading of four bytes into the little-endian one. -/
theorem byteSwap_be32 (a b c d : Byte) : byteSwap (be32 a b c d) = le32 a b c d := by
  simp only [byteSwap, beByte_be32]
  rfl

/-- The little-endian words of a byte list are its big-endian words, each swapped. -/
theorem wordsLE_eq_map_byteSwap : ∀ bs : List Byte, wordsLE bs = (wordsBE bs).map byteSwap
  | [] | [_] | [_, _] | [_, _, _] => by simp [wordsLE, wordsBE]
  | _ :: _ :: _ :: _ :: rest => by
    rw [wordsLE, wordsBE, List.map_cons, byteSwap_be32, wordsLE_eq_map_byteSwap rest]

/-- Word `t` is the four bytes from `4t` on, read little-endian. -/
theorem wordsLE_getElem? (bs : List Byte) (t : Nat) (h : 4 * t + 3 < bs.length) :
    (wordsLE bs)[t]? = some (le32 bs[4 * t] bs[4 * t + 1] bs[4 * t + 2] bs[4 * t + 3]) := by
  rw [wordsLE_eq_map_byteSwap, List.getElem?_map, wordsBE_getElem? bs t h, Option.map_some, byteSwap_be32]

/-- Settles O44: the padding is `padWith`'s for a little-endian length field, and a block's words are its big-endian words swapped. -/
theorem md5MessageWords : Obligations.Md5MessageWords := by
  unfold Obligations.Md5MessageWords
  constructor
  · intro m
    exact ⟨padZeros m.length, padWith_eq le64 m, padZeros_fills _, fun y => padZeros_le⟩
  · intro x
    have hblock : x.toList.length = 64 := x.length_toList
    refine ⟨by rw [wordsLE_eq_map_byteSwap, List.length_map, length_wordsBE, hblock], fun t ht => ?_⟩
    rw [List.getD_eq_getElem?_getD, wordsLE_getElem? _ _ (by omega), Option.getD_some, le32, be32_toNat]
    simp only [Vector.getElem_toList]

end Sys2Proof.Machine
end

section
/-! The truncation's offset, header and result, and the six digits of the code (43_truncate_format.md R171, R172, R174). -/

namespace Sys2Proof.Machine

/-! ## The offset and the header (R171) -/

/-- The offset mask keeps bits 2 and 0. -/
theorem and_five_eq_bits : ∀ x : Byte, x.toNat &&& 5 = 4 * x[2].toNat + x[0].toNat := by decide +kernel

theorem offsetOf_toNat (d : Vector Byte 16) : (offsetOf d).toNat = d[9].toNat &&& 5 := (offset_mask d[9]).2.1

theorem offsetOf_le (d : Vector Byte 16) : (offsetOf d).toNat ≤ 5 := by
  rw [offsetOf_toNat]
  exact (offset_mask d[9]).2.2

/-- The table of R171, one row for every two values of the bits. -/
theorem offsetOf_of_bits {d : Vector Byte 16} {x y : Bool} (h2 : d[9][2] = x) (h0 : d[9][0] = y) :
    (offsetOf d).toNat = 4 * x.toNat + y.toNat := by
  rw [offsetOf_toNat, and_five_eq_bits, h2, h0]

theorem headerAt_toNat {d : Vector Byte 16} {o : BitVec 3} {k : Nat} (hk : k + 3 < 16) (ho : o.toNat = k) :
    (headerAt d o).toNat = beValue d[k] d[k + 1] d[k + 2] d[k + 3] := by
  subst ho
  rw [headerAt, be32_toNat]

/-- A byte past the header's four is not read. -/
theorem headerAt_set_of_lt (d : Vector Byte 16) {o : BitVec 3} {i : Nat} (hi : i < 16) (c : Byte) (ho : o.toNat + 3 < i) :
    headerAt (d.set i c) o = headerAt d o := by
  have hread : ∀ j (hj : j < 16), j < i → (d.set i c)[j] = d[j] := fun j hj hji =>
    Vector.getElem_set_ne hi hj (by omega)
  simp only [headerAt]
  rw [hread o.toNat, hread (o.toNat + 1), hread (o.toNat + 2), hread (o.toNat + 3)] <;> omega

/-- Settles O39: the offset is 4 times bit 2 plus bit 0 of byte 9, so at most 5, and a header from there ends before byte 9. -/
theorem offsetTakesFourValues : Obligations.OffsetTakesFourValues := by
  unfold Obligations.OffsetTakesFourValues
  intro d
  have hle := offsetOf_le d
  exact ⟨offsetOf_toNat d, offsetOf_of_bits, offsetOf_of_bits, offsetOf_of_bits, offsetOf_of_bits, by omega,
    fun k hk => headerAt_toNat hk, fun c => headerAt_set_of_lt d (by omega) c (by omega)⟩

/-! ## The result (R172) -/

/-- A header below the modulus is its own result. -/
theorem resultOf_ofNat {r : Nat} (h : r < 1000000) : (resultOf (BitVec.ofNat 32 r)).toNat = r := by
  rw [resultOf_toNat, BitVec.toNat_ofNat]
  omega

/-- Settles O40: mask, modulus and bound are the laws of `resultOf`, and each value up to 999999 is the result of itself. -/
theorem truncationArithmetic : Obligations.TruncationArithmetic := by
  unfold Obligations.TruncationArithmetic
  exact ⟨fun h => ⟨signMask_toNat h, resultOf_toNat h, resultOf_le h⟩,
    fun r hr => ⟨BitVec.ofNat 32 r, resultOf_ofNat (by omega)⟩⟩

/-! ## The digits (R174) -/

theorem digit_isAsciiDigit (r : BitVec 20) (k : Nat) : isAsciiDigit (digit r k) := by
  rw [isAsciiDigit, digit_toNat]
  omega

/-- A character's value as a digit. -/
theorem digit_toNat_sub (r : BitVec 20) (k : Nat) : (digit r k).toNat - 0x30 = r.toNat / 10 ^ (5 - k) % 10 := by
  rw [digit_toNat, Nat.add_sub_cancel_left]

/-- A number of at most six decimal digits is the sum of them at their places. -/
theorem sum_six_decimal_digits {n : Nat} (h : n ≤ 999999) :
    n / 10 ^ 5 % 10 * 100000 + n / 10 ^ 4 % 10 * 10000 + n / 10 ^ 3 % 10 * 1000 + n / 10 ^ 2 % 10 * 100 +
      n / 10 ^ 1 % 10 * 10 + n / 10 ^ 0 % 10 = n := by
  omega

/-- Settles O41: each character is 0x30 plus a decimal digit of the result, and six digits are all it has. -/
theorem digitsAreDecimal : Obligations.DigitsAreDecimal := by
  unfold Obligations.DigitsAreDecimal
  intro r hr
  refine ⟨fun k _ => digit_isAsciiDigit r k, ?_⟩
  simp only [digit_toNat_sub]
  exact sum_six_decimal_digits hr

end Sys2Proof.Machine
end

section
/-! The errors of a write transaction in their order, the KEYLEN check of acceptance, and the interrupt level
(60_exceptions.md R225, R228, R229). -/

namespace Sys2Proof.Machine

/-! ## The commands whose acceptance checks KEYLEN (R225) -/

/-- HSHA1, DERIVE and TOTP alone read KEYLEN (30_encoding.md R93). -/
theorem readsKeylen_iff (i : Instr) : readsKeylen i = true ↔ i = .hsha1 ∨ i = .derive ∨ i = .totp := by
  cases i <;> decide

/-- The other five commands do not read KEYLEN. -/
theorem readsKeylen_eq_false_iff (i : Instr) :
    readsKeylen i = false ↔ i = .cdiv ∨ i = .hmd5 ∨ i = .trunc ∨ i = .fmt ∨ i = .zeroize := by
  cases i <;> decide

/-- The words 2, 6 and 7 are those of the commands that read KEYLEN (30_encoding.md R92). -/
theorem exists_readsKeylen_encode {v : Word} (h : v = 0x2 ∨ v = 0x6 ∨ v = 0x7) :
    ∃ i, readsKeylen i = true ∧ encode i = v := by
  obtain rfl | rfl | rfl := h
  · exact ⟨.hsha1, rfl, rfl⟩
  · exact ⟨.derive, rfl, rfl⟩
  · exact ⟨.totp, rfl, rfl⟩

/-! ## CMD writes to the idle block -/

/-- A command that reads KEYLEN, written to CMD of the idle block while KEYLEN > 256, is stored and recorded as KEYLEN_RANGE;
nothing else changes. -/
theorem memWrite_cmd_range {b : Block} {i : Instr} (hb : b.busy = false) (hr : readsKeylen i = true)
    (hk : 256 < b.keylen.toNat) :
    b.memWrite 0x00C (encode i) = { b with cmd := encode i, done := false, err := true, errcode := errKeylenRange } := by
  rw [memWrite_cmd _ hb]
  exact accept_range { b with cmd := encode i } hr hk

/-- Any other command written to CMD of the idle block is accepted. -/
theorem memWrite_cmd_started {b : Block} {i : Instr} (hb : b.busy = false)
    (h : readsKeylen i = true → b.keylen.toNat ≤ 256) :
    b.memWrite 0x00C (encode i) = ({ b with cmd := encode i } : Block).clearForAccept.start i := by
  rw [memWrite_cmd _ hb]
  exact accept_ok { b with cmd := encode i } h

/-- Settles O22: a command is checked exactly if it reads KEYLEN, and one that passes is started, with ERR and ERRCODE cleared. -/
theorem keylenRangeIsChecked : Obligations.KeylenRangeIsChecked := by
  unfold Obligations.KeylenRangeIsChecked
  intro b i hb
  constructor
  · intro hkeyed hk
    exact memWrite_cmd_range hb ((readsKeylen_iff i).2 hkeyed) hk
  · intro h
    have hpass : readsKeylen i = true → b.keylen.toNat ≤ 256 := by
      rw [← readsKeylen_eq_false_iff] at h
      exact fun hr => h.resolve_left (by simp [hr])
    rw [memWrite_cmd_started hb hpass]
    exact ⟨rfl, rfl, rfl⟩

/-! ## The order of the errors (R228) -/

/-- A write transaction answered with a bus error does not reach the block (20_memory.md R61). -/
theorem busWrite_of_not_legal (n : Bool) (b : Block) {a : BitVec 12} {strb : BitVec 4} (v : Word)
    (h : ¬ (wordOffset a ∧ strb = 0xF)) : busWrite n b a strb v = b := by
  rw [← legalWrite_iff, Bool.not_eq_true] at h
  simp [busWrite, h]

/-- A completion records no error: it keeps ERR, ERRCODE and WERR. -/
theorem exec_keeps_errors {i : Instr} {s t : State} (h : exec i s = .next t) :
    t.blk.err = s.blk.err ∧ t.blk.errcode = s.blk.errcode ∧ t.blk.werr = s.blk.werr := by
  obtain ⟨-, -, -, herr, hwerr, herrcode, -⟩ := effectOf_frame i s.blk.operands s.blk
  rw [exec_next h]
  exact ⟨herr, herrcode, hwerr⟩

/-- Settles O21: a write that is no legal transaction stops there; a legal one reaches the window, where it is dropped while BUSY = 1;
a CMD write of the idle block is an acceptance attempt. -/
theorem errorsAreCheckedInOrder : Obligations.ErrorsAreCheckedInOrder := by
  unfold Obligations.ErrorsAreCheckedInOrder
  refine ⟨fun b a strb v => ⟨busWrite_of_not_legal true b v, ?dropped, ?illegal, ?range⟩, fun i s t => exec_keeps_errors⟩
  case dropped =>
    intro hword hstrb hb hinput
    rw [busWrite_legal b v ((legalWrite_iff a strb).2 ⟨hword, hstrb⟩), memWrite_dropped v hinput hb]
  case illegal =>
    rintro rfl rfl hb hw
    rw [busWrite_legal b v rfl, memWrite_cmd_illegal hb hw, errIllegalCmd]
  case range =>
    rintro rfl rfl hb hv hk
    obtain ⟨i, hr, rfl⟩ := exists_readsKeylen_encode hv
    rw [busWrite_legal b _ rfl, memWrite_cmd_range hb hr hk, errKeylenRange]

/-! ## The interrupt level (R229) -/

/-- irq is 1 exactly while it is enabled and something is pending. -/
theorem irq_iff (b : Block) : b.irq = true ↔ b.ctrlIe = true ∧ (b.done = true ∨ b.err = true) := by
  rw [Block.irq, Bool.and_eq_true, Bool.or_eq_true]

/-- Settles O24: the level's formula, read as a proposition. -/
theorem interruptLevel : Obligations.InterruptLevel := by
  unfold Obligations.InterruptLevel
  exact irq_iff

end Sys2Proof.Machine
end

section
/-! The command decoder and the disassembler, total on all words (30_encoding.md R91, R92, R94, R101). -/

namespace Sys2Proof.Machine

/-- Settles O1: a word that decodes is its command's, and a command's word decodes to it. -/
theorem decodeAcceptsExactlyTheEncodings : Obligations.DecodeAcceptsExactlyTheEncodings := by
  unfold Obligations.DecodeAcceptsExactlyTheEncodings
  exact fun w i => ⟨eq_encode_of_decode, fun h => h ▸ decode_encode i⟩

/-- Settles O2: the eight words are the commands' encodings, and the four others evaluate to their errors. -/
theorem tabledWordsDecode : Obligations.TabledWordsDecode := by
  unfold Obligations.TabledWordsDecode
  exact ⟨decode_encode .cdiv, decode_encode .hsha1, decode_encode .hmd5, decode_encode .trunc, decode_encode .fmt,
    decode_encode .derive, decode_encode .totp, decode_encode .zeroize, rfl, rfl, rfl, rfl⟩

/-! ## Disassembly (R101) -/

theorem disassemble_encode (i : Instr) : disassemble (encode i) = i.mnemonic := by
  rw [disassemble, decode_encode]

theorem disassemble_illegal {w : Word} (h : illegalWord w) :
    disassemble w = ".cmd 0x" ++ String.ofList (hexDigits 8 w.toNat) := by
  obtain ⟨e, he⟩ := (decode_error_iff w).2 h
  rw [disassemble, he]

@[simp] theorem length_hexDigits (d n : Nat) : (hexDigits d n).length = d := by
  induction d with
  | zero => rfl
  | succ d ih => rw [hexDigits, List.length_cons, ih]

/-- A printed digit reads back as its value. -/
theorem digitValue_hexDigit : ∀ k < 16, digitValue 16 (hexDigit k) = some k := by decide

/-- The printed digits, read after the number `m`, continue it by the low digits of `n`. -/
theorem parseDigits_hexDigits (d n m : Nat) : parseDigits 16 m (hexDigits d n) = some (m * 16 ^ d + n % 16 ^ d) := by
  induction d generalizing m with
  | zero => simp [hexDigits, parseDigits, Nat.mod_one]
  | succ d ih =>
    have hdigit : digitValue 16 (hexDigit (n / 16 ^ d % 16)) = some (n / 16 ^ d % 16) :=
      digitValue_hexDigit _ (Nat.mod_lt _ (by omega))
    have hsplit : n % 16 ^ (d + 1) = n % 16 ^ d + 16 ^ d * (n / 16 ^ d % 16) := Nat.mod_pow_succ
    rw [hexDigits, parseDigits, hdigit]
    simp only [ih, hsplit, Option.some.injEq]
    ring

/-- Settles O5: a legal word is some command's, and the hexadecimal digits of any other are read back digit by digit. -/
theorem disassemblyIsTotal : Obligations.DisassemblyIsTotal := by
  unfold Obligations.DisassemblyIsTotal
  intro w
  constructor
  · intro hlegal
    obtain ⟨i, rfl⟩ := (illegal_or_encode w).resolve_left hlegal
    exact ⟨i, rfl, disassemble_encode i⟩
  · intro hillegal
    refine ⟨disassemble_illegal hillegal, length_hexDigits 8 _, ?_⟩
    rw [parseDigits_hexDigits, Nat.zero_mul, Nat.zero_add, Nat.mod_eq_of_lt (show w.toNat < 16 ^ 8 from w.isLt)]

end Sys2Proof.Machine
end

section
/-! The machine's invariant (10_state.md R49, 30_encoding.md R97): each operation of the block keeps it, and so does every step. -/

namespace Sys2Proof.Machine

/-- The invariant of the block alone. -/
structure BlockInv (b : Block) : Prop where
  registers : RegisterInv b
  flight    : FlightInv b

theorem MachineInv.block {s : State} (h : MachineInv s) : BlockInv s.blk := ⟨h.registers, h.flight⟩

/-! ## The idle block -/

/-- An idle block has no command in flight. -/
theorem FlightInv.inflight_eq_none {b : Block} (h : FlightInv b) (hb : b.busy = false) : b.inflight = none := by
  have hsome : b.inflight.isSome = false := h.busyInflight ▸ hb
  exact Option.not_isSome_iff_eq_none.1 (by simp [hsome])

/-- With no command in flight, only the two error rules are left to show. -/
theorem flightInv_of_idle {b : Block} (hb : b.busy = false) (hf : b.inflight = none) (hdone : b.done = true → b.err = false)
    (hcode : b.errcode = 0 ∨ b.errcode = 1 ∨ b.errcode = 2) (herr : b.err = true → b.errcode ≠ 0) : FlightInv b where
  busyInflight := by rw [hb, hf, Option.isSome_none]
  keylenLegal := fun f h => by rw [hf] at h; cases h
  snapHolds := fun f h => by rw [hf] at h; cases h
  busyNotDone := fun h => by rw [hb] at h; cases h
  doneNotErr := hdone
  errcodeLegal := hcode
  errHasCode := herr

theorem blockInv_reset : BlockInv Block.reset where
  registers := ⟨by decide, .inl rfl, Nat.zero_le _, rfl, .inl ⟨rfl, rfl⟩, fun _ => rfl⟩
  flight := flightInv_of_idle rfl rfl (fun _ => rfl) (.inl rfl) (fun h => by cases h)

/-- Settles O50: the block's invariant is evaluated at its reset values, and rst_n is high. -/
theorem invAtReset : Obligations.InvAtReset := by
  unfold Obligations.InvAtReset
  exact ⟨blockInv_reset.registers, blockInv_reset.flight, fun _ => rfl⟩

/-- While the block is idle, the flight invariant speaks of its flags alone. -/
theorem FlightInv.of_flags_eq {b c : Block} (h : FlightInv b) (hidle : b.busy = false) (hbusy : c.busy = b.busy)
    (hinflight : c.inflight = b.inflight) (hdone : c.done = b.done) (herr : c.err = b.err) (hcode : c.errcode = b.errcode) :
    FlightInv c :=
  flightInv_of_idle (hbusy.trans hidle) (hinflight.trans (h.inflight_eq_none hidle)) (hdone ▸ herr ▸ h.doneNotErr)
    (hcode ▸ h.errcodeLegal) (herr ▸ hcode ▸ h.errHasCode)

/-! ## Host writes (20_memory.md R63, R65) -/

theorem BlockInv.dropWrite {b : Block} (h : BlockInv b) : BlockInv b.dropWrite where
  registers := { h.registers with }
  flight := { h.flight with }

/-- Clearing flags breaks nothing. -/
theorem BlockInv.w1c {b : Block} (h : BlockInv b) (v : Word) : BlockInv (b.w1c v) where
  registers := { h.registers with busyNoErr := fun hb => by simp [h.registers.busyNoErr hb] }
  flight := { h.flight with
    busyNotDone := fun hb => by simp [h.flight.busyNotDone hb]
    doneNotErr := fun hd => by
      have hdone : b.done = true := (Bool.and_eq_true _ _ ▸ hd).1
      simp [h.flight.doneNotErr hdone]
    errHasCode := fun he => h.flight.errHasCode (Bool.and_eq_true _ _ ▸ he).1 }

/-- An acceptance attempt on the idle block, whichever of its three outcomes it has. -/
theorem BlockInv.accept {b : Block} (h : BlockInv b) (hb : b.busy = false) (w : Word) : BlockInv (b.accept w) := by
  have hidle := h.flight.inflight_eq_none hb
  obtain ⟨-, hacc⟩ | ⟨i, -, -, -, hacc⟩ | ⟨i, -, hkeylen, hacc⟩ := accept_cases b w <;> rw [hacc]
  · exact ⟨{ h.registers with busyNoErr := fun hbusy => by simp [hb] at hbusy },
      flightInv_of_idle hb hidle (fun hd => by simp at hd) (.inr (.inl rfl))
        (fun _ => show errIllegalCmd ≠ 0 by decide)⟩
  · exact ⟨{ h.registers with busyNoErr := fun hbusy => by simp [hb] at hbusy },
      flightInv_of_idle hb hidle (fun hd => by simp at hd) (.inr (.inr rfl))
        (fun _ => show errKeylenRange ≠ 0 by decide)⟩
  · refine ⟨{ h.registers with busyNoErr := fun _ => rfl }, rfl, ?_, ?_, fun _ => rfl, fun _ => rfl, .inl rfl,
      fun he => by simp at he⟩ <;> rintro f ⟨⟩
    · exact hkeylen
    · rfl

/-- Storing an input register is for the idle block only: there no snapshot has to agree with it. -/
theorem BlockInv.storeReg {b : Block} (h : BlockInv b) {r : Reg} (hfree : isInput r = false ∨ b.busy = false) (v : Word) :
    BlockInv (b.storeReg r v) := by
  have hstored : isInput r = true → b.busy = false := fun hr => hfree.resolve_left (by simp [hr])
  cases r with
  | ident | offset | header | result | codeLo | codeHi | digest1 | digest2 | reserved => exact h
  | ctrl => exact ⟨{ h.registers with }, { h.flight with }⟩
  | status => exact h.w1c v
  | cmd =>
    have hcmd : BlockInv { b with cmd := v } := ⟨{ h.registers with }, { h.flight with }⟩
    exact hcmd.accept (hstored rfl) v
  | step =>
    rw [Block.storeReg]
    split
    · exact h
    · exact ⟨{ h.registers with stepNonZero := ‹_› }, h.flight.of_flags_eq (hstored rfl) rfl rfl rfl rfl rfl⟩
  | keylen | timeLo | timeHi | counterLo | counterHi | key =>
    exact ⟨{ h.registers with }, h.flight.of_flags_eq (hstored rfl) rfl rfl rfl rfl rfl⟩

theorem BlockInv.busWrite {b : Block} (h : BlockInv b) (n : Bool) (a : BitVec 12) (m : BitVec 4) (v : Word) :
    BlockInv (busWrite n b a m v) := by
  obtain hsame | ⟨-, -, -, -, hdrop⟩ | ⟨-, -, hfree, hstore⟩ := busWrite_cases n b a m v
  · rwa [hsame]
  · rw [hdrop]
    exact h.dropWrite
  · rw [hstore]
    exact h.storeReg hfree v

theorem BlockInv.hostStep {s : State} (h : BlockInv s.blk) : BlockInv (hostStep s).blk := by
  obtain hsame | ⟨a, m, v, _, -, hwrite⟩ := hostStep_blk s
  · rwa [hsame]
  · rw [hwrite]
    exact h.busWrite _ a m v

/-! ## Completions (30_encoding.md R98) -/

/-- The offset mask leaves four values (43_truncate_format.md R171). -/
theorem masked_offset : ∀ x : Byte, (x &&& 0x05).setWidth 3 = (0 : BitVec 3) ∨ (x &&& 0x05).setWidth 3 = (1 : BitVec 3) ∨
    (x &&& 0x05).setWidth 3 = (4 : BitVec 3) ∨ (x &&& 0x05).setWidth 3 = (5 : BitVec 3) := by decide +kernel

theorem RegisterInv.truncateInto {b : Block} (h : RegisterInv b) (d : Vector Byte 16) : RegisterInv (truncateInto d b) :=
  { h with offsetLegal := masked_offset d[9], resultBound := resultOf_le _ }

/-- The six characters of a formatted code are the digits. -/
theorem codeChar_formatInto (r : BitVec 20) (b : Block) {k : Nat} (hk : k < 6) : (formatInto r b).codeChar k = digit r k := by
  unfold Block.codeChar
  split
  case isTrue hlo =>
    have hchar := beByte_be32 (digit r 0) (digit r 1) (digit r 2) (digit r 3) ⟨k, hlo⟩
    rw [beByte] at hchar
    refine hchar.trans ?_
    interval_cases k <;> rfl
  case isFalse hlo =>
    have hchar := beByte_be32 (digit r 4) (digit r 5) 0 0 ⟨k - 4, by omega⟩
    rw [beByte] at hchar
    refine hchar.trans ?_
    obtain rfl | rfl : k = 4 ∨ k = 5 := by omega
    · rfl
    · rfl

/-- A word of two characters has its low half 0 (R37). -/
theorem be32_low_half (c d : Byte) : (be32 c d 0 0).extractLsb' 0 16 = 0 := by
  apply BitVec.eq_of_toNat_eq
  rw [BitVec.extractLsb'_toNat, be32_toNat, beValue]
  simp only [BitVec.ofNat_eq_ofNat, BitVec.toNat_ofNat, Nat.zero_mod, Nat.add_zero, Nat.shiftRight_zero]
  omega

theorem RegisterInv.formatInto {b : Block} (h : RegisterInv b) (r : BitVec 20) : RegisterInv (formatInto r b) :=
  { h with
    codeHiLow := be32_low_half _ _
    codeForm := .inr fun k hk => codeChar_formatInto r b hk ▸ digit_isAsciiDigit r k }

theorem RegisterInv.effectDerive {b : Block} (h : RegisterInv b) (o : Operands) : RegisterInv (effectDerive o b) := by
  have hdigests : RegisterInv ((b.setDigest1 (derivedDigest1 o)).setDigest2 (derivedDigest2 o)) := { h with }
  exact (hdigests.truncateInto (derivedDigest2 o)).formatInto _

theorem RegisterInv.effectOf {b : Block} (h : RegisterInv b) (i : Instr) (o : Operands) : RegisterInv (effectOf i o b) := by
  cases i with
  | cdiv | hsha1 | hmd5 => exact { h with }
  | trunc => exact h.truncateInto _
  | fmt => exact h.formatInto _
  | derive => exact h.effectDerive o
  | totp =>
    have hcounter : RegisterInv (b.setCounter (divideTime o)) := { h with }
    exact hcounter.effectDerive _
  | zeroize =>
    exact { h with offsetLegal := .inl rfl, resultBound := Nat.zero_le _, codeHiLow := rfl, codeForm := .inl ⟨rfl, rfl⟩ }

/-- A completion ends BUSY, and with ERR 0 while BUSY = 1 it may set DONE. -/
theorem BlockInv.complete {b : Block} (h : BlockInv b) (hb : b.busy = true) (i : Instr) (o : Operands) :
    BlockInv (effectOf i o b).finish := by
  obtain ⟨-, -, -, herr, -, herrcode, -⟩ := effectOf_frame i o b
  refine ⟨{ h.registers.effectOf i o with busyNoErr := fun hbusy => by simp at hbusy }, flightInv_of_idle rfl rfl ?_ ?_ ?_⟩
  · exact fun _ => herr.trans (h.registers.busyNoErr hb)
  · exact herrcode ▸ h.flight.errcodeLegal
  · exact herr ▸ herrcode ▸ h.flight.errHasCode

/-! ## Every step -/

/-- The host does not move a block held in reset (70_reset_and_hazards.md R260). -/
theorem hostStep_blk_in_reset {s : State} (h : s.rstN = false) : (hostStep s).blk = s.blk := by
  obtain hsame | ⟨a, m, v, _, -, hwrite⟩ := hostStep_blk s
  · exact hsame
  · rw [hwrite, h]
    simp [busWrite]

theorem MachineInv.hostStep {s : State} (h : MachineInv s) : MachineInv (hostStep s) := by
  obtain ⟨hregs, hflight⟩ := h.block.hostStep
  refine ⟨hregs, hflight, fun hn => ?_⟩
  rw [(hostStep_frame s).2] at hn
  rw [hostStep_blk_in_reset hn, h.inReset hn]

theorem MachineInv.engineStep {s t : State} (h : MachineInv s) (ht : engineStep s = .next t) : MachineInv t := by
  obtain hidle | ⟨f, hbusy, -, hdone⟩ := engineStep_cases s
  · rw [hidle] at ht
    cases ht
    exact h
  · rw [hdone] at ht
    cases ht
    obtain ⟨hregs, hflight⟩ := h.block.complete hbusy f.op f.snap
    refine ⟨hregs, hflight, fun hn => ?_⟩
    rw [h.inReset hn] at hbusy
    cases hbusy

/-- Settles O51: the invariant is kept by the agent that moves, whichever it is; the interleaving is no part of it. -/
theorem stepKeepsInv : Obligations.StepKeepsInv := by
  unfold Obligations.StepKeepsInv
  intro s t h ht
  obtain ⟨sc, hagent⟩ := step_agents s
  have hs : MachineInv { s with sched := sc } := ⟨h.registers, h.flight, h.inReset⟩
  obtain ⟨-, hstep⟩ | ⟨-, hstep⟩ | ⟨-, hstep⟩ | hstep := hagent <;> rw [hstep] at ht
  · cases ht
    exact hs.hostStep
  · exact hs.engineStep ht
  · cases ht
    exact ⟨blockInv_reset.registers, blockInv_reset.flight, fun _ => rfl⟩
  · cases ht
    exact ⟨h.registers, h.flight, fun hn => by simp at hn⟩

end Sys2Proof.Machine
end

section
/-! The register map (10_state.md R20, R42), what a read of each offset returns (20_memory.md R62) and what a write of the idle
block's registers stores (R63). -/

namespace Sys2Proof.Machine

/-! ## The register map -/

/-- Every named register stands at a word offset, and is found there. -/
theorem ofOffset_toOffset {r : Reg} (h : r.named = true) : wordOffset r.toOffset ∧ Reg.ofOffset r.toOffset = r := by
  unfold wordOffset
  cases r with
  | reserved => cases h
  | digest1 i => exact ⟨by revert i; decide, ofOffset_digest1 i⟩
  | digest2 i => exact ⟨by revert i; decide, ofOffset_digest2 i⟩
  | key i => exact ⟨by revert i; decide, ofOffset_key i⟩
  | ident | ctrl | status | cmd | step | keylen | timeLo | timeHi => decide
  | counterLo | counterHi | offset | header | result | codeLo | codeHi => decide

/-- ID to CODE_HI stand one after another. -/
theorem toOffset_ident_to_codeHi : ∀ i : Fin 15, (Reg.ofOffset (BitVec.ofNat 12 (0x000 + 4 * i.val))).named = true ∧
    (Reg.ofOffset (BitVec.ofNat 12 (0x000 + 4 * i.val))).toOffset = BitVec.ofNat 12 (0x000 + 4 * i.val) := by
  decide

/-- A word offset is reserved or a named register's: the ranges of the map leave no gap. -/
theorem reserved_or_toOffset {a : BitVec 12} (ha : wordOffset a) : reservedOffset a ∨ ∃ r : Reg, r.named = true ∧ r.toOffset = a := by
  by_cases hfixed : a.toNat < 0x03C
  · obtain ⟨i, rfl⟩ := eq_ofNat_of_wordOffset (n := 15) ha rfl (Nat.zero_le _) (by omega)
    exact .inr ⟨_, toOffset_ident_to_codeHi i⟩
  by_cases hdigest1 : 0x040 ≤ a.toNat ∧ a.toNat < 0x054
  · obtain ⟨i, rfl⟩ := eq_ofNat_of_wordOffset (n := 5) ha rfl hdigest1.1 (by omega)
    exact .inr ⟨.digest1 i, rfl, rfl⟩
  by_cases hdigest2 : 0x060 ≤ a.toNat ∧ a.toNat < 0x070
  · obtain ⟨i, rfl⟩ := eq_ofNat_of_wordOffset (n := 4) ha rfl hdigest2.1 (by omega)
    exact .inr ⟨.digest2 i, rfl, rfl⟩
  by_cases hkey : 0x100 ≤ a.toNat ∧ a.toNat < 0x200
  · obtain ⟨i, rfl⟩ := eq_ofNat_of_wordOffset (n := 64) ha rfl hkey.1 (by omega)
    exact .inr ⟨.key i, rfl, rfl⟩
  · have := a.isLt
    unfold wordOffset at ha
    refine .inl ⟨ha, ?_⟩
    omega

/-- The register found at a word offset stands there. -/
theorem toOffset_ofOffset {a : BitVec 12} (ha : wordOffset a) (h : (Reg.ofOffset a).named = true) :
    (Reg.ofOffset a).toOffset = a := by
  obtain hres | ⟨r, hr, rfl⟩ := reserved_or_toOffset ha
  · rw [ofOffset_reserved hres] at h
    cases h
  · rw [(ofOffset_toOffset hr).2]

theorem ofOffset_eq_reserved_iff {a : BitVec 12} (ha : wordOffset a) : Reg.ofOffset a = .reserved ↔ reservedOffset a := by
  refine ⟨fun h => ?_, ofOffset_reserved⟩
  obtain hres | ⟨r, hr, rfl⟩ := reserved_or_toOffset ha
  · exact hres
  · rw [(ofOffset_toOffset hr).2] at h
    subst h
    cases hr

/-- Settles O4: the three directions of the map. -/
theorem registerMapRoundTrip : Obligations.RegisterMapRoundTrip := by
  unfold Obligations.RegisterMapRoundTrip
  exact ⟨fun r => ofOffset_toOffset, fun a => toOffset_ofOffset, fun a => ofOffset_eq_reserved_iff⟩

/-! ## Reads (R62) -/

theorem flagWord_toNat (f : Bool) : (flagWord f).toNat = bitValue f 0 := by cases f <;> rfl

/-- STATUS in numbers: its fields stand at their bits. -/
theorem statusWord_toNat (b : Block) : b.statusWord.toNat =
    b.errcode.toNat * 256 + bitValue b.werr 3 + bitValue b.err 2 + bitValue b.done 1 + bitValue b.busy 0 := by
  have hfields : ∀ (e : BitVec 4) (w r d y : Bool),
      (e.setWidth 32 <<< 8 ||| flagWord w <<< 3 ||| flagWord r <<< 2 ||| flagWord d <<< 1 ||| flagWord y).toNat =
        e.toNat * 256 + bitValue w 3 + bitValue r 2 + bitValue d 1 + bitValue y 0 := by decide +kernel
  exact hfields _ _ _ _ _

/-- The low half of a 64-bit register. -/
theorem lowHalf_toNat (x : DWord) : (x.extractLsb' 0 32).toNat = x.toNat % 2 ^ 32 := by
  rw [BitVec.extractLsb'_toNat, Nat.shiftRight_zero]

/-- Its high half. -/
theorem highHalf_toNat (x : DWord) : (x.extractLsb' 32 32).toNat = x.toNat / 2 ^ 32 := by
  have := x.isLt
  rw [BitVec.extractLsb'_toNat, Nat.shiftRight_eq_div_pow, Nat.mod_eq_of_lt (by omega)]

/-- A register narrower than a word reads with zeros above it. -/
theorem setWidth_word_toNat {n : Nat} (x : BitVec n) (hn : n ≤ 32) : (x.setWidth 32).toNat = x.toNat := by
  rw [BitVec.toNat_setWidth, Nat.mod_eq_of_lt (x.isLt.trans_le (Nat.pow_le_pow_right (by omega) hn))]

theorem memRead_digest1 (b : Block) (i : Fin 5) :
    b.memRead (BitVec.ofNat 12 (0x040 + 4 * i.val)) = digest1Word b.digest1 i := by
  rw [Block.memRead, ofOffset_digest1, Block.readReg]

theorem memRead_digest2 (b : Block) (i : Fin 4) :
    b.memRead (BitVec.ofNat 12 (0x060 + 4 * i.val)) = digest2Word b.digest2 i := by
  rw [Block.memRead, ofOffset_digest2, Block.readReg]

theorem memRead_key (b : Block) (i : Fin 64) : b.memRead (BitVec.ofNat 12 (0x100 + 4 * i.val)) = 0 := by
  rw [Block.memRead, ofOffset_key, Block.readReg]

/-- Settles O14: the map finds each offset's register, and the read shows it. -/
theorem readReturnsTheRegister : Obligations.ReadReturnsTheRegister := by
  unfold Obligations.ReadReturnsTheRegister
  intro b
  refine ⟨memRead_ident b, flagWord_toNat _, statusWord_toNat b, memRead_cmd b, rfl, rfl, lowHalf_toNat _, highHalf_toNat _,
    lowHalf_toNat _, highHalf_toNat _, setWidth_word_toNat _ (by omega), rfl, setWidth_word_toNat _ (by omega), rfl, rfl, ?_, ?_,
    ?_, ?_⟩
  · intro i h
    rw [memRead_digest1 b ⟨i, h⟩, digest1Word, be32_toNat]
  · intro i h
    rw [memRead_digest2 b ⟨i, h⟩, digest2Word, be32_toNat]
  · exact fun i h => memRead_key b ⟨i, h⟩
  · intro a ha
    rw [Block.memRead, ofOffset_reserved ha, Block.readReg]

/-! ## The reset values (10_state.md R48) -/

/-- Every register but ID and STEP reads 0 right after reset. -/
theorem readReg_reset {r : Reg} (hid : r ≠ .ident) (hstep : r ≠ .step) : Block.reset.readReg r = 0 := by
  cases r with
  | ident => exact absurd rfl hid
  | step => exact absurd rfl hstep
  | digest1 i => revert i; decide
  | digest2 i => revert i; decide
  | ctrl | status | cmd | keylen | timeLo | timeHi | counterLo | counterHi => rfl
  | offset | header | result | codeLo | codeHi | key | reserved => rfl

/-- Settles O6: only ID's and STEP's offsets find the two registers that do not read 0. -/
theorem resetReadsTheListedValues : Obligations.ResetReadsTheListedValues := by
  unfold Obligations.ResetReadsTheListedValues
  refine ⟨rfl, rfl, fun a ha hid hstep => readReg_reset (fun h => hid ?_) (fun h => hstep ?_),
    fun n h => Vector.getElem_replicate h, rfl, rfl⟩
  · rw [← toOffset_ofOffset ha (by rw [h]; rfl), h]
    rfl
  · rw [← toOffset_ofOffset ha (by rw [h]; rfl), h]
    rfl

/-! ## Writes (R63) -/

/-- A low half written, in numbers. -/
theorem setLow_eq_ofNat (x : DWord) (v : Word) : setLow x v = BitVec.ofNat 64 (x.toNat / 2 ^ 32 * 2 ^ 32 + v.toNat) := by
  have := x.isLt; have := v.isLt
  apply BitVec.eq_of_toNat_eq
  rw [setLow, BitVec.toNat_append, highHalf_toNat, ← Nat.shiftLeft_add_eq_or_of_lt v.isLt, Nat.shiftLeft_eq, BitVec.toNat_ofNat,
    Nat.mod_eq_of_lt (by omega)]

/-- A high half written, in numbers. -/
theorem setHigh_eq_ofNat (x : DWord) (v : Word) : setHigh x v = BitVec.ofNat 64 (v.toNat * 2 ^ 32 + x.toNat % 2 ^ 32) := by
  have := x.isLt; have := v.isLt
  apply BitVec.eq_of_toNat_eq
  rw [setHigh, BitVec.toNat_append, lowHalf_toNat, ← Nat.shiftLeft_add_eq_or_of_lt (by omega), Nat.shiftLeft_eq,
    BitVec.toNat_ofNat, Nat.mod_eq_of_lt (b := 2 ^ 64) (by omega)]

/-- A written key word replaces its four bytes (10_state.md R40). -/
theorem getElem_setKeyWord (k : Vector Byte 256) (i : Fin 64) (v : Word) {n : Nat} (h : n < 256) :
    (setKeyWord k i v)[n] = if n / 4 = i.val then beByte v ⟨n % 4, by omega⟩ else k[n] := by
  simp only [setKeyWord, Vector.getElem_set]
  by_cases hn : n / 4 = i.val
  · rw [if_pos hn]
    obtain h3 | h2 | h1 | h0 : n = 4 * i.val + 3 ∨ n = 4 * i.val + 2 ∨ n = 4 * i.val + 1 ∨ n = 4 * i.val := by omega
    · simp [h3]
    · simp [h2]
    · simp [h1]
    · simp [h0]
  · rw [if_neg hn, if_neg (by omega), if_neg (by omega), if_neg (by omega), if_neg (by omega)]

/-- A key byte as the statement's number. -/
theorem beByte_eq_ofNat (v : Word) (i : Fin 4) : beByte v i = BitVec.ofNat 8 (v.toNat / 256 ^ (3 - i.val)) := by
  have hpow : ∀ i : Fin 4, 2 ^ (24 - 8 * i.val) = 256 ^ (3 - i.val) := by decide
  apply BitVec.eq_of_toNat_eq
  rw [beByte_toNat, hpow, BitVec.toNat_ofNat]

theorem memWrite_idle {b : Block} {a : BitVec 12} {r : Reg} (v : Word) (hb : b.busy = false) (ha : Reg.ofOffset a = r) :
    b.memWrite a v = b.storeReg r v := by
  rw [Block.memWrite, ha, writeReg_stored v (.inr hb)]

/-- Settles O15: while idle no write is dropped, so each is what its register stores, with 64-bit halves and key bytes in numbers. -/
theorem writeSetsItsRegister : Obligations.WriteSetsItsRegister := by
  unfold Obligations.WriteSetsItsRegister
  intro b v hb
  refine ⟨memWrite_ctrl b v, memWrite_step v hb, memWrite_idle v hb ofOffset_keylen, ?_, ?_, ?_, ?_, ?_⟩
  · rw [memWrite_idle v hb ofOffset_timeLo, Block.storeReg, setLow_eq_ofNat]
  · rw [memWrite_idle v hb ofOffset_timeHi, Block.storeReg, setHigh_eq_ofNat]
  · rw [memWrite_idle v hb ofOffset_counterLo, Block.storeReg, setLow_eq_ofNat]
  · rw [memWrite_idle v hb ofOffset_counterHi, Block.storeReg, setHigh_eq_ofNat]
  · intro i hi
    refine ⟨setKeyWord b.key ⟨i, hi⟩ v, memWrite_idle v hb (ofOffset_key ⟨i, hi⟩), fun n h => ?_⟩
    rw [getElem_setKeyWord, beByte_eq_ofNat]

end Sys2Proof.Machine
end

section
/-! Bus transactions: which are legal (20_memory.md R61), what the host learns of one, in reset (70_reset_and_hazards.md R260) and
out of it, and where the window stands (20_memory.md R71). -/

namespace Sys2Proof.Machine

/-! ## The scheduled host step -/

/-- A host event steps the host, with the event taken off the interleaving. -/
theorem step_host {s : State} {sc : List Event} (h : s.sched = .host :: sc) :
    step s = .next (hostStep { s with sched := sc }) := step_cons h

theorem step_host_rd {s : State} {sc : List Event} {a : BitVec 12} {v : Fin 16} {rest : List HostOp}
    (hs : s.sched = .host :: sc) (hp : s.host.prog = .rd a v :: rest) :
    step s = .next (hostRead { s with host := { s.host with prog := rest }, sched := sc } a v) := by
  rw [step_host hs, hostStep_rd (s := { s with sched := sc }) hp]

theorem step_host_wr {s : State} {sc : List Event} {a : BitVec 12} {m : BitVec 4} {v : Word} {rest : List HostOp}
    (hs : s.sched = .host :: sc) (hp : s.host.prog = .wr a m v :: rest) :
    step s = .next (hostWrite { s with host := { s.host with prog := rest }, sched := sc } a m v) := by
  rw [step_host hs, hostStep_wr (s := { s with sched := sc }) hp]

/-! ## Reads and writes while rst_n = 0 (R260) -/

/-- While rst_n = 0 a read answers 0. -/
@[simp] theorem busRead_in_reset (b : Block) (a : BitVec 12) : (busRead false b a).rdata = 0 := by simp [busRead]

/-- Settles O8: a write does not reach a block held in reset, and what the host is answered there is 0. -/
theorem transactionsInResetHaveNoEffect : Obligations.TransactionsInResetHaveNoEffect := by
  unfold Obligations.TransactionsInResetHaveNoEffect
  intro s sc hn
  refine ⟨fun hs => ⟨_, step_host hs, hostStep_blk_in_reset hn, (hostStep_frame _).2.trans hn, ?read, ?write⟩, fun hs => step_cons hs⟩
  case read =>
    intro a v rest hp
    rw [hostStep_rd (s := { s with sched := sc }) hp]
    simp [hn]
  case write =>
    intro a strb w rest hp
    rw [hostStep_wr (s := { s with sched := sc }) hp]
    simp [hn]

/-! ## Legal and illegal transactions (R61) -/

/-- An aligned read out of reset answers the register, with no error. -/
theorem busRead_aligned (b : Block) {a : BitVec 12} (h : wordOffset a) : busRead true b a = ⟨false, b.memRead a⟩ := by
  simp [busRead, (aligned_iff a).2 h]

/-- A misaligned read answers an error and 0. -/
theorem busRead_misaligned (n : Bool) (b : Block) {a : BitVec 12} (h : ¬ wordOffset a) : busRead n b a = ⟨true, 0⟩ := by
  have ha : aligned a = false := by rwa [← aligned_iff, Bool.not_eq_true] at h
  simp [busRead, ha]

/-- Settles O13: the host's step at a write or a read is that transaction, whose answer and effect turn on its legality. -/
theorem onlyAlignedWholeWordsAreLegal : Obligations.OnlyAlignedWholeWordsAreLegal := by
  unfold Obligations.OnlyAlignedWholeWordsAreLegal
  intro s sc rest a hn hs
  constructor
  · intro strb w hp
    refine ⟨_, step_host_wr hs hp, rfl, rfl, rfl, fun hlegal => ?_, fun hillegal => ?_⟩
    · have hl := (legalWrite_iff a strb).2 hlegal
      exact ⟨by simp [hl], by simp [hn, busWrite_legal _ _ hl]⟩
    · have hl : legalWrite a strb = false := by rwa [← legalWrite_iff, Bool.not_eq_true] at hillegal
      exact ⟨by simp [hl], busWrite_of_not_legal _ _ _ hillegal⟩
  · intro v hp
    refine ⟨_, step_host_rd hs hp, rfl, rfl, rfl, fun haligned => ?_, fun hmisaligned => ?_⟩
    · simp [hn, busRead_aligned _ haligned]
    · simp [busRead_misaligned _ _ hmisaligned]

/-! ## POLL (30_encoding.md R100) -/

/-- Offset 0x008 reads STATUS. -/
theorem memRead_status (b : Block) : b.memRead 0x008 = b.statusWord := by
  rw [Block.memRead, ofOffset_status, Block.readReg]

/-- Settles O53: the host's step at POLL, by the value of BUSY. -/
theorem pollWaitsForIdle : Obligations.PollWaitsForIdle := by
  unfold Obligations.PollWaitsForIdle
  intro s rest sc hn hp hs
  refine ⟨_, step_host hs, ?_⟩
  rw [hostStep_poll (s := { s with sched := sc }) hp hn, memRead_status]
  exact ⟨rfl, rfl, fun hb => if_pos hb, fun hb => if_neg (by simp [hb])⟩

/-! ## What the host can learn of the block (10_state.md R41) -/

/-- The host learns of the block what reads answer, and nothing else. -/
theorem hostStep_host_congr {s : State} {b : Block} (h : ∀ a, busRead s.rstN b a = busRead s.rstN s.blk a) :
    (hostStep { s with blk := b }).host = (hostStep s).host := by
  cases hp : s.host.prog with
  | nil => simp only [hostStep, hp]
  | cons op rest =>
    cases op with
    | rd a v =>
      rw [hostStep_rd hp, hostStep_rd (s := { s with blk := b }) hp, hostRead_host, hostRead_host]
      exact congrArg (HostState.takeRead _ v) (h a)
    | wr a m v => rw [hostStep_wr hp, hostStep_wr (s := { s with blk := b }) hp, hostWrite_host, hostWrite_host]
    | poll => simp only [hostStep, hp, h]

/-- No register's read shows the key. -/
theorem readReg_key_irrelevant (b : Block) (k : Vector Byte 256) (r : Reg) :
    ({ b with key := k } : Block).readReg r = b.readReg r := by cases r <;> rfl

/-- Settles O26: reads answer alike whatever the key, and the host learns from reads alone. -/
theorem keyIsNeverRead : Obligations.KeyIsNeverRead := by
  unfold Obligations.KeyIsNeverRead
  intro s k sc hs
  refine ⟨_, _, step_host hs, step_host hs, hostStep_host_congr (s := { s with sched := sc }) fun a => ?_⟩
  simp only [busRead, Block.memRead, readReg_key_irrelevant]

/-! ## A command in flight and the host (R65, R75) -/

/-- Storing to a register that is no input keeps CMD and every result. -/
theorem storeReg_keeps_results (b : Block) {r : Reg} (v : Word) (h : isInput r = false) :
    (b.storeReg r v).cmd = b.cmd ∧ (b.storeReg r v).offset = b.offset ∧ (b.storeReg r v).header = b.header ∧
      (b.storeReg r v).codeLo = b.codeLo ∧ (b.storeReg r v).codeHi = b.codeHi := by
  cases r with
  | cmd | step | keylen | timeLo | timeHi | counterLo | counterHi | key => cases h
  | ctrl | status => exact ⟨rfl, rfl, rfl, rfl, rfl⟩
  | ident | offset | header | result | codeLo | codeHi | digest1 | digest2 | reserved => exact ⟨rfl, rfl, rfl, rfl, rfl⟩

/-- No write transaction changes CMD or a result while BUSY = 1. -/
theorem busWrite_keeps_results {b : Block} (hb : b.busy = true) (n : Bool) (a : BitVec 12) (m : BitVec 4) (v : Word) :
    (busWrite n b a m v).cmd = b.cmd ∧ (busWrite n b a m v).offset = b.offset ∧ (busWrite n b a m v).header = b.header ∧
      (busWrite n b a m v).codeLo = b.codeLo ∧ (busWrite n b a m v).codeHi = b.codeHi := by
  obtain hsame | ⟨-, -, -, -, hdrop⟩ | ⟨-, -, hfree, hstore⟩ := busWrite_cases n b a m v
  · rw [hsame]
    exact ⟨rfl, rfl, rfl, rfl, rfl⟩
  · rw [hdrop]
    exact ⟨rfl, rfl, rfl, rfl, rfl⟩
  · rw [hstore]
    exact storeReg_keeps_results b v (hfree.resolve_right (by simp [hb]))

/-- Settles O54: the host's step is at most one write transaction, which keeps what the command in flight reads and has written. -/
theorem hostCannotDisturbACommand : Obligations.HostCannotDisturbACommand := by
  unfold Obligations.HostCannotDisturbACommand
  intro s sc _ hb hs
  refine ⟨_, step_host hs, ?_⟩
  obtain hsame | ⟨a, m, v, _, -, hwrite⟩ := hostStep_blk { s with sched := sc }
  · rw [hsame]
    exact ⟨hb, rfl, rfl, rfl, rfl, rfl, rfl, rfl⟩
  · rw [hwrite]
    obtain ⟨hbusy, hinflight, hsnap⟩ := busWrite_keeps_flight hb s.rstN a m v
    exact ⟨hbusy, hinflight, hsnap, busWrite_keeps_results hb s.rstN a m v⟩

/-! ## The window (R71) -/

/-- BASE is a whole number of pages. -/
theorem base_mod : Config.base % 4096 = 0 := by
  unfold Config.base
  omega

/-- Settles O27: within 4096 addresses of BASE, taking BASE off undoes adding it. -/
theorem windowIsAtBase : Obligations.WindowIsAtBase := by
  unfold Obligations.WindowIsAtBase
  have hround : ∀ a : BitVec 12, windowOffset (busAddress a) = some a := fun a => by
    have := a.isLt
    rw [windowOffset, busAddress, if_pos ⟨by omega, by omega⟩, Nat.add_sub_cancel_left, BitVec.ofNat_toNat, BitVec.setWidth_eq]
  refine ⟨base_mod, hround, fun n => ⟨?_, ?_⟩⟩
  · rintro ⟨a, ha⟩
    unfold windowOffset at ha
    split at ha
    case isTrue hin =>
      refine ⟨BitVec.ofNat 12 (n - Config.base), ?_⟩
      rw [busAddress, BitVec.toNat_ofNat]
      omega
    case isFalse => cases ha
  · rintro ⟨a, ha⟩
    exact ⟨a, ha ▸ hround a⟩

end Sys2Proof.Machine
end

section
/-! A command from its acceptance to its completion (30_encoding.md R96 to R98), and the engine's and the reset's steps. -/

namespace Sys2Proof.Machine

/-- Settles O11: every step is the step of one event, and every event's step answers next. -/
theorem noStepStops : Obligations.NoStepStops := by
  unfold Obligations.NoStepStops
  intro s
  obtain ⟨-, hstep⟩ | ⟨e, sc, -, hstep⟩ := step_event s <;> rw [hstep] <;> exact eventStep_next _ _

/-- Settles O7: the reset event's step is `assertReset`, whose block is the reset block. -/
theorem resetAbandonsTheCommand : Obligations.ResetAbandonsTheCommand := by
  unfold Obligations.ResetAbandonsTheCommand
  intro s sc hs
  exact ⟨_, step_cons hs, rfl, rfl, rfl, rfl, rfl, rfl, rfl, rfl, rfl, fun n h => Vector.getElem_replicate h,
    fun n h => Vector.getElem_replicate h, fun n h => Vector.getElem_replicate h, rfl, rfl, rfl, rfl⟩

/-- Settles O9: an engine event, or with none left the default, steps the engine; whether it moves is BUSY's. -/
theorem engineStepRunsTheCommandInFlight : Obligations.EngineStepRunsTheCommandInFlight := by
  unfold Obligations.EngineStepRunsTheCommandInFlight
  intro s sc
  refine ⟨fun f hb hf => ⟨fun hs => step_engine hs hb hf, fun hs => ?_⟩, fun hb hs => ?_⟩
  · rw [step_nil_busy hs hb, engineStep_inflight hb hf]
  · exact (step_cons hs).trans (engineStep_idle (s := { s with sched := sc }) hb)

/-- Settles O23: a CMD write of a command that passes the check starts it, with the snapshot written out. -/
theorem acceptanceTakesASnapshot : Obligations.AcceptanceTakesASnapshot := by
  unfold Obligations.AcceptanceTakesASnapshot
  intro b i hb h
  exact memWrite_cmd_started hb h

/-! ## Issuing a command from outside (log entry 1) -/

/-- A 32-bit table row's word is the command word itself. -/
theorem ofNat_mod_toNat (w : Word) : BitVec.ofNat 32 (w.toNat % 2 ^ 32) = w := by
  rw [Nat.mod_eq_of_lt w.isLt, BitVec.ofNat_toNat, BitVec.setWidth_eq]

/-- Right after a legal word was issued, its command is in flight with the registers' values. -/
theorem issueNow_blk {s : State} {i : Instr} (h : readsKeylen i = true → s.blk.keylen.toNat ≤ 256) :
    (issueNow s (encode i)).blk.busy = true ∧ (issueNow s (encode i)).blk.inflight = some ⟨i, s.blk.snapshot⟩ := by
  have hstart : (issueNow s (encode i)).blk =
      ({ s.blk with busy := false, inflight := none, cmd := encode i } : Block).clearForAccept.start i := accept_ok _ h
  rw [hstart]
  exact ⟨rfl, rfl⟩

/-- Settles O10: the word placed is the command's, the engine moves next, and what it runs is in flight. -/
theorem fetchWordIsRunNext : Obligations.FetchWordIsRunNext := by
  unfold Obligations.FetchWordIsRunNext
  intro s i h
  refine ⟨?_, ?_⟩
  · rw [decodeTableWord, if_pos le_rfl, ofNat_mod_toNat, decode_encode]
    rfl
  · obtain ⟨hbusy, hflight⟩ := issueNow_blk h
    rw [State.withFetchWord, ofNat_mod_toNat]
    exact ⟨_, step_engine (sc := s.sched) rfl hbusy hflight, hflight, rfl, rfl⟩

/-! ## A whole command: the CMD write, then the completion -/

/-- A run of two steps, from the two steps. -/
theorem run_two {s t : State} (h : step s = .next t) : run 2 s = step t := by
  rw [run_succ 1 h]
  cases hu : step t <;> simp only [run, hu]

/-- The host's CMD write of a command word starts the command, by the transaction the host was about to make. -/
theorem step_aboutToIssue {s : State} {i : Instr} (hn : s.rstN = true) (hb : s.blk.busy = false)
    (h : readsKeylen i = true → s.blk.keylen.toNat ≤ 256) :
    step (aboutToIssue s (encode i)) = .next { s with
      blk := { s.blk with cmd := encode i, done := false, err := false, errcode := 0, busy := true,
                          inflight := some ⟨i, s.blk.snapshot⟩ },
      host := { s.host with prog := [], busErr := false }, sched := [.engine] } := by
  have hlegal : (!legalWrite 0x00C 0xF) = false := rfl
  rw [step_host_wr (sc := [.engine]) (rest := []) rfl rfl]
  simp only [aboutToIssue, hostWrite, hn, busWrite_cmd_ok hb h, takeWrite_running, hlegal, HostState.noteAnswer, Bool.or_false]

/-- Settles O12: the host's event starts the command, and the engine's event then runs `exec` of it. -/
theorem issuedCommandRuns : Obligations.IssuedCommandRuns := by
  unfold Obligations.IssuedCommandRuns
  intro s i hn hb h
  refine ⟨_, ?_, exec_eq i _⟩
  rw [run_two (step_aboutToIssue hn hb h), step_engine rfl rfl rfl, exec_eq]

end Sys2Proof.Machine
end

section
/-! What raises, masks and clears irq (60_exceptions.md R229, R230). -/

namespace Sys2Proof.Machine

/-- A STATUS write leaves of irq what no bit of the word clears. -/
theorem irq_memWrite_status (b : Block) (v : Word) : (b.memWrite 0x008 v).irq =
    (b.ctrlIe && ((b.done && decide (v.toNat / 2 % 2 = 0)) || (b.err && decide (v.toNat / 4 % 2 = 0)))) := by
  have hbit : ∀ n : Nat, (!decide (n % 2 = 1)) = decide (n % 2 = 0) := fun n => by
    rw [← decide_not, decide_eq_decide]
    omega
  rw [memWrite_status, Block.irq, Block.w1c_ctrlIe, Block.w1c_done, Block.w1c_err, getElem_eq_decide v (by omega),
    getElem_eq_decide v (by omega), hbit, hbit]
  rfl

/-- An acceptance attempt leaves irq at IE if the word is rejected, and at 0 if it is accepted. -/
theorem irq_accept {b : Block} (hb : b.busy = false) (w : Word) : (b.accept w).irq = (b.ctrlIe && !(b.accept w).busy) := by
  obtain ⟨-, hacc⟩ | ⟨i, -, -, -, hacc⟩ | ⟨i, -, -, hacc⟩ := accept_cases b w <;> rw [hacc] <;> simp [Block.irq, hb]

theorem irq_memWrite_cmd {b : Block} (hb : b.busy = false) (w : Word) :
    (b.memWrite 0x00C w).irq = (b.ctrlIe && !(b.memWrite 0x00C w).busy) := by
  rw [memWrite_cmd w hb]
  exact irq_accept (b := { b with cmd := w }) hb w

/-- A completion sets DONE, so irq is IE. -/
theorem irq_exec {i : Instr} {s t : State} (h : exec i s = .next t) : t.blk.irq = s.blk.ctrlIe := by
  obtain ⟨hie, -⟩ := effectOf_frame i s.blk.operands s.blk
  rw [exec_next h]
  simp [Block.irq, hie]

/-- Settles O25: each write's irq by the lemmas above; what is cleared or rejected fixes the flags they are read from. -/
theorem interruptIsRaisedAndCleared : Obligations.InterruptIsRaisedAndCleared := by
  unfold Obligations.InterruptIsRaisedAndCleared
  refine ⟨fun b v => ⟨?ctrl, ?done, ?err, irq_memWrite_status b v, ?both, ?oneDone, ?oneErr, ?illegal, ?range, ?rejected,
    ?accepted⟩, fun i s t => irq_exec, rfl⟩
  case ctrl => rw [memWrite_ctrl, Block.irq]
  case done => rw [memWrite_ctrl]
  case err => rw [memWrite_ctrl]
  case both =>
    intro hv
    have hdone : v.toNat / 2 % 2 ≠ 0 := by omega
    have herr : v.toNat / 4 % 2 ≠ 0 := by omega
    rw [irq_memWrite_status]
    simp [hdone, herr]
  case oneDone =>
    intro _ hnoerr hv
    rw [irq_memWrite_status]
    simp [hnoerr, hv]
  case oneErr =>
    intro _ hnodone hv
    rw [irq_memWrite_status]
    simp [hnodone, hv]
  case illegal =>
    intro hb hw
    rw [memWrite_cmd_illegal hb hw]
    simp [Block.irq]
  case range =>
    intro hb hv hk
    obtain ⟨i, hr, rfl⟩ := exists_readsKeylen_encode hv
    rw [memWrite_cmd_range hb hr hk]
    simp [Block.irq]
  case rejected =>
    intro hb hidle
    rw [irq_memWrite_cmd hb, hidle, Bool.not_false, Bool.and_true]
  case accepted =>
    intro hb hbusy
    rw [irq_memWrite_cmd hb, hbusy, Bool.not_true, Bool.and_false]

end Sys2Proof.Machine
end

section
/-! The hash functions' values: HMAC's key block (41_hmac_sha1.md R126), the words the digest registers show (R125,
42_hmac_md5.md R156), the counter's bytes (R127) and the published vectors. -/

namespace Sys2Proof.Machine

/-! ## The counter's bytes (R127) -/

/-- Settles O42: byte `n` is cut out at bit `8 * (7 - n)`. -/
theorem counterBytesAreBigEndian : Obligations.CounterBytesAreBigEndian := by
  unfold Obligations.CounterBytesAreBigEndian
  intro c
  refine ⟨length_be64 c, fun n hn => ?_⟩
  have hbyte : ∀ k, (c.extractLsb' k 8).toNat = c.toNat / 2 ^ k % 256 := fun k => by
    rw [BitVec.extractLsb'_toNat, Nat.shiftRight_eq_div_pow]
  interval_cases n <;> exact hbyte _

/-! ## The digest words (R125, R156) -/

/-- A word's four bytes in numbers. -/
theorem beByte_toNat_all (w : Word) :
    (beByte w 0).toNat = w.toNat / 2 ^ 24 % 256 ∧ (beByte w 1).toNat = w.toNat / 2 ^ 16 % 256 ∧
      (beByte w 2).toNat = w.toNat / 2 ^ 8 % 256 ∧ (beByte w 3).toNat = w.toNat / 2 ^ 0 % 256 :=
  ⟨beByte_toNat w 0, beByte_toNat w 1, beByte_toNat w 2, beByte_toNat w 3⟩

/-- A word's four bytes, read big-endian, are the word. -/
theorem be32_beByte (w : Word) : be32 (beByte w 0) (beByte w 1) (beByte w 2) (beByte w 3) = w := by
  have := w.isLt
  obtain ⟨h0, h1, h2, h3⟩ := beByte_toNat_all w
  apply BitVec.eq_of_toNat_eq
  rw [be32_toNat, beValue, h0, h1, h2, h3]
  omega

/-- Read in the other order, they are the byte-reversed word. -/
theorem be32_beByte_reversed (w : Word) : (be32 (beByte w 3) (beByte w 2) (beByte w 1) (beByte w 0)).toNat =
    w.toNat % 256 * 2 ^ 24 + w.toNat / 2 ^ 8 % 256 * 2 ^ 16 + w.toNat / 2 ^ 16 % 256 * 2 ^ 8 + w.toNat / 2 ^ 24 := by
  have := w.isLt
  obtain ⟨h0, h1, h2, h3⟩ := beByte_toNat_all w
  rw [be32_toNat, beValue, h0, h1, h2, h3]
  omega

/-- Settles O46: each digest word is four output bytes, which are those of one chaining word. -/
theorem digestWordsReadTheHash : Obligations.DigestWordsReadTheHash := by
  unfold Obligations.DigestWordsReadTheHash
  refine ⟨fun h => ⟨be32_beByte h.a, be32_beByte h.b, be32_beByte h.c, be32_beByte h.d, be32_beByte h.e⟩, fun h p hp => ?_⟩
  simp only [List.mem_cons, List.not_mem_nil, or_false] at hp
  obtain rfl | rfl | rfl | rfl := hp <;> exact be32_beByte_reversed _

/-! ## HMAC's key block (R126) -/

section
variable {n : Nat} (hash : List Byte → Vector Byte n)

/-- A key of up to 64 bytes is padded with zeros. -/
theorem hmacBlockKey_short {k : List Byte} (h : k.length ≤ 64) :
    hmacBlockKey hash k = k ++ List.replicate (64 - k.length) 0 := by
  rw [hmacBlockKey, Config.hmacBlock, if_neg (by omega)]

/-- A longer one is its hash, padded. -/
theorem hmacBlockKey_long {k : List Byte} (h : 64 < k.length) :
    hmacBlockKey hash k = (hash k).toList ++ List.replicate (64 - n) 0 := by
  rw [hmacBlockKey, Config.hmacBlock, if_pos h, Vector.length_toList]

/-- A hash that fits the block acts as the long key it is of. -/
theorem hmacBlockKey_hash (hn : n ≤ 64) {k : List Byte} (h : 64 < k.length) :
    hmacBlockKey hash (hash k).toList = hmacBlockKey hash k := by
  rw [hmacBlockKey_long hash h, hmacBlockKey_short hash (by rwa [Vector.length_toList]), Vector.length_toList]

/-- Zero bytes that still fit the block are padding. -/
theorem hmacBlockKey_append_zeros {k : List Byte} {z : Nat} (h : k.length + z ≤ 64) :
    hmacBlockKey hash (k ++ List.replicate z 0) = hmacBlockKey hash k := by
  have hpad : z + (64 - (k.length + z)) = 64 - k.length := by omega
  rw [hmacBlockKey_short hash (by simpa using h), hmacBlockKey_short hash (by omega), List.append_assoc, List.length_append,
    List.length_replicate, List.replicate_append_replicate, hpad]

/-- HMAC sees its key as the block alone. -/
theorem hmac_congr {k l : List Byte} (h : hmacBlockKey hash k = hmacBlockKey hash l) (m : List Byte) :
    hmac hash k m = hmac hash l m := by
  simp only [hmac, h]

theorem length_hmacBlockKey (hn : n ≤ 64) (k : List Byte) : (hmacBlockKey hash k).length = 64 := by
  by_cases h : k.length ≤ 64
  · rw [hmacBlockKey_short hash h, List.length_append, List.length_replicate]
    omega
  · rw [hmacBlockKey_long hash (by omega), List.length_append, List.length_replicate, Vector.length_toList]
    omega

/-- The key block as a vector of 64 bytes. -/
def blockKeyVector (hn : n ≤ 64) (k : List Byte) : Vector Byte 64 :=
  ⟨(hmacBlockKey hash k).toArray, by rw [List.size_toArray, length_hmacBlockKey hash hn]⟩

theorem hmac_eq_blockKeyVector (hn : n ≤ 64) (k m : List Byte) : hmac hash k m =
    hash ((blockKeyVector hash hn k).toList.map (· ^^^ 0x5C) ++
      (hash ((blockKeyVector hash hn k).toList.map (· ^^^ 0x36) ++ m)).toList) := rfl

/-- The block's bytes for a key of up to 64 bytes. -/
theorem blockKeyVector_short (hn : n ≤ 64) {k : List Byte} (h : k.length ≤ 64) {j : Nat} (hj : j < 64) :
    (blockKeyVector hash hn k)[j] = if h' : j < k.length then k[j] else 0 := by
  simp only [blockKeyVector, Vector.getElem_mk, List.getElem_toArray, hmacBlockKey_short hash h, List.getElem_append,
    List.getElem_replicate]

/-- The block's bytes for a longer key. -/
theorem blockKeyVector_long (hn : n ≤ 64) {k : List Byte} (h : 64 < k.length) {j : Nat} (hj : j < 64) :
    (blockKeyVector hash hn k)[j] = if h' : j < n then (hash k)[j] else 0 := by
  simp only [blockKeyVector, Vector.getElem_mk, List.getElem_toArray, hmacBlockKey_long hash h, List.getElem_append,
    List.getElem_replicate, Vector.length_toList, Vector.getElem_toList]

end

/-- Settles O45: the key block is the same in each case, for either hash. -/
theorem hmacKeyPreparation : Obligations.HmacKeyPreparation := by
  unfold Obligations.HmacKeyPreparation
  refine ⟨fun k m h => ⟨?_, ?_⟩, fun k m z h => ⟨?_, ?_⟩⟩
  · exact hmac_congr sha1 (hmacBlockKey_hash sha1 (by omega) h).symm m
  · exact hmac_congr md5 (hmacBlockKey_hash md5 (by omega) h).symm m
  · exact hmac_congr sha1 (hmacBlockKey_append_zeros sha1 h) m
  · exact hmac_congr md5 (hmacBlockKey_append_zeros md5 h) m

/-! ## Published values (95_test_vectors.md section 3) -/

/-- Settles O47: both hashes of the one-block message are evaluated. -/
theorem referenceHashVectors : Obligations.ReferenceHashVectors := by
  unfold Obligations.ReferenceHashVectors
  exact ⟨by decide +kernel, by decide +kernel⟩

end Sys2Proof.Machine
end

section
/-! The commands at completion (30_encoding.md R93, R98): what each writes in numbers, its frame, and what it reads. -/

namespace Sys2Proof.Machine

/-! ## The divider (40_counter_divider.md R110, R111) -/

/-- Settles O38: the quotient is the floor of the natural numbers'. -/
theorem dividerIsExact : Obligations.DividerIsExact := by
  unfold Obligations.DividerIsExact
  intro o h
  have hpos : 0 < o.step.toNat := Nat.pos_of_ne_zero fun h0 => h (BitVec.eq_of_toNat_eq h0)
  rw [divideTime_toNat h]
  exact ⟨Nat.div_mul_le_self _ _, Nat.lt_mul_of_div_lt (Nat.lt_succ_self _) hpos, Nat.div_le_self _ _⟩

/-- Settles O28: the completion stores the quotient. -/
theorem cdivCompletes : Obligations.CdivCompletes := by
  unfold Obligations.CdivCompletes
  intro s o h
  exact ⟨divideTime o, divideTime_toNat, exec_inflight h⟩

/-! ## The two HMAC commands (41_hmac_sha1.md R128, 42_hmac_md5.md R158) -/

/-- The secret is as long as KEYLEN says, up to the whole buffer (10_state.md R41). -/
theorem length_secret (o : Operands) : o.secret.length = min o.keylen.toNat 256 := by
  rw [Operands.secret, List.length_take, Vector.length_toList]

theorem getElem_secret {o : Operands} {n : Nat} (h : n < o.secret.length) :
    o.secret[n] = o.key[n]'(by rw [length_secret] at h; omega) := by
  simp only [Operands.secret, List.getElem_take, Vector.getElem_toList]

/-- Settles O29: the key block of the secret, in its two cases. -/
theorem hsha1Completes : Obligations.Hsha1Completes := by
  unfold Obligations.Hsha1Completes
  intro s o h
  have hlength := length_secret o
  refine ⟨blockKeyVector sha1 (by omega) o.secret, fun hshort n hn => ?_, fun hlong n hn => ?_, ?_⟩
  · have hsecret : o.secret.length = o.keylen.toNat := by omega
    rw [blockKeyVector_short sha1 _ (by omega) hn]
    split
    case isTrue hin => rw [if_pos (by omega), getElem_secret]
    case isFalse hout => rw [if_neg (by omega)]
  · exact blockKeyVector_long sha1 _ (by omega) hn
  · rw [exec_inflight h, effectOf, effectHsha1, hmacSha1, hmac_eq_blockKeyVector sha1 (by omega), finish_setDigest1]
    rfl

/-- Settles O30: DIGEST1's 20 bytes are a short key. -/
theorem hmd5Completes : Obligations.Hmd5Completes := by
  unfold Obligations.Hmd5Completes
  intro s o h
  have hlength : o.digest1.toList.length = 20 := Vector.length_toList
  refine ⟨blockKeyVector md5 (by omega) o.digest1.toList, fun n hn => ?_, ?_⟩
  · rw [blockKeyVector_short md5 _ (by omega) hn]
    simp only [hlength, Vector.getElem_toList]
  · rw [exec_inflight h, effectOf, effectHmd5, hmacMd5, hmac_eq_blockKeyVector md5 (by omega), finish_setDigest2]
    rfl

/-! ## Truncation and code in numbers (43_truncate_format.md R170, R173) -/

theorem headerAt_eq_ofNat {d : Vector Byte 16} {o : BitVec 3} {k : Nat} (hk : k + 3 < 16) (ho : o.toNat = k) :
    headerAt d o = BitVec.ofNat 32 (beValue d[k] d[k + 1] d[k + 2] d[k + 3]) := by
  rw [← headerAt_toNat hk ho, BitVec.ofNat_toNat, BitVec.setWidth_eq]

theorem resultOf_eq_ofNat (h : Word) : resultOf h = BitVec.ofNat 20 (h.toNat % 2 ^ 31 % 1000000) := by
  rw [← resultOf_toNat, BitVec.ofNat_toNat, BitVec.setWidth_eq]

/-- A word of four characters, by their places. -/
theorem be32_eq_ofNat (a b c d : Byte) :
    be32 a b c d = BitVec.ofNat 32 (a.toNat * 2 ^ 24 + b.toNat * 2 ^ 16 + c.toNat * 2 ^ 8 + d.toNat) := by
  have hvalue : (be32 a b c d).toNat = a.toNat * 2 ^ 24 + b.toNat * 2 ^ 16 + c.toNat * 2 ^ 8 + d.toNat := by
    rw [be32_toNat, beValue]
    omega
  rw [← hvalue, BitVec.ofNat_toNat, BitVec.setWidth_eq]

/-- A word of two characters (R37). -/
theorem be32_pair_eq_ofNat (a b : Byte) : be32 a b 0 0 = BitVec.ofNat 32 (a.toNat * 2 ^ 24 + b.toNat * 2 ^ 16) := by
  simpa using be32_eq_ofNat a b 0 0

/-- What TRUNC writes, in numbers. -/
theorem truncation_in_numbers (d : Vector Byte 16) : ∃ (k : Nat) (_ : k + 3 < 16) (h : Nat), k = d[9].toNat &&& 5 ∧
    h = beValue d[k] d[k + 1] d[k + 2] d[k + 3] ∧
    offsetOf d = BitVec.ofNat 3 k ∧ headerAt d (offsetOf d) = BitVec.ofNat 32 h ∧
    resultOf (headerAt d (offsetOf d)) = BitVec.ofNat 20 (h % 2 ^ 31 % 1000000) ∧
    (resultOf (headerAt d (offsetOf d))).toNat = h % 2 ^ 31 % 1000000 := by
  have hk : (offsetOf d).toNat + 3 < 16 := by have := offsetOf_le d; omega
  have hh := headerAt_toNat hk (d := d) rfl
  refine ⟨(offsetOf d).toNat, hk, _, offsetOf_toNat d, rfl, ?_, headerAt_eq_ofNat hk rfl, ?_, ?_⟩
  · rw [BitVec.ofNat_toNat, BitVec.setWidth_eq]
  · rw [resultOf_eq_ofNat, hh]
  · rw [resultOf_toNat, hh]

/-- Settles O31: the three values in numbers. -/
theorem truncCompletes : Obligations.TruncCompletes := by
  unfold Obligations.TruncCompletes
  intro s o h
  obtain ⟨k, hk, v, hkd, hv, hoffset, hheader, hresult, -⟩ := truncation_in_numbers o.digest2
  refine ⟨k, hk, v, hkd, hv, ?_⟩
  rw [exec_inflight h, ← hoffset, ← hheader, ← hresult]
  rfl

/-- What FMT writes, in numbers. -/
theorem formatInto_eq (r : BitVec 20) (b : Block) : formatInto r b = { b with
    codeLo := BitVec.ofNat 32 ((digit r 0).toNat * 2 ^ 24 + (digit r 1).toNat * 2 ^ 16 + (digit r 2).toNat * 2 ^ 8 + (digit r 3).toNat),
    codeHi := BitVec.ofNat 32 ((digit r 4).toNat * 2 ^ 24 + (digit r 5).toNat * 2 ^ 16) } := by
  rw [formatInto, setCode_eq, be32_eq_ofNat, be32_pair_eq_ofNat]

/-- Settles O32: the characters are the digits of RESULT. -/
theorem fmtCompletes : Obligations.FmtCompletes := by
  unfold Obligations.FmtCompletes
  intro s o h
  refine ⟨fun k => (digit o.result k).toNat, fun k _ => digit_toNat o.result k, ?_⟩
  rw [exec_inflight h, effectOf, effectFmt, formatInto_eq]
  rfl

/-! ## The composites (44_composite_control.md R190 to R192) -/

/-- DERIVE's effect on any block, in numbers, from its operands alone (R190). -/
theorem effectDerive_in_numbers (o : Operands) :
    ∃ (d1 : Vector Byte 20) (d2 : Vector Byte 16) (k : Nat) (_ : k + 3 < 16) (h r : Nat) (c : Nat → Nat),
      d1 = hmacSha1 (o.key.toList.take o.keylen.toNat) (be64 o.counter) ∧
      d2 = hmacMd5 d1.toList (be64 o.counter) ∧
      k = d2[9].toNat &&& 5 ∧ h = beValue d2[k] d2[k + 1] d2[k + 2] d2[k + 3] ∧ r = h % 2 ^ 31 % 1000000 ∧
      (∀ k < 6, c k = 0x30 + r / 10 ^ (5 - k) % 10) ∧
      ∀ b, (effectDerive o b).finish = { b with
        digest1 := d1, digest2 := d2, offset := BitVec.ofNat 3 k, header := BitVec.ofNat 32 h, result := BitVec.ofNat 20 r,
        codeLo := BitVec.ofNat 32 (c 0 * 2 ^ 24 + c 1 * 2 ^ 16 + c 2 * 2 ^ 8 + c 3),
        codeHi := BitVec.ofNat 32 (c 4 * 2 ^ 24 + c 5 * 2 ^ 16),
        inflight := none, busy := false, done := true } := by
  obtain ⟨k, hk, h, hkd, hh, hoffset, hheader, hresult, hr⟩ := truncation_in_numbers (derivedDigest2 o)
  refine ⟨derivedDigest1 o, derivedDigest2 o, k, hk, h, h % 2 ^ 31 % 1000000,
    fun j => (digit (resultOf (headerAt (derivedDigest2 o) (offsetOf (derivedDigest2 o)))) j).toNat, rfl, rfl, hkd, hh, rfl,
    fun j _ => hr ▸ digit_toNat _ j, fun b => ?_⟩
  rw [← hoffset, ← hheader, ← hresult, effectDerive_eq, finish_setDerived, be32_eq_ofNat, be32_pair_eq_ofNat]

/-- Settles O33: DERIVE's effect in numbers, at the block in flight. -/
theorem deriveCompletes : Obligations.DeriveCompletes := by
  unfold Obligations.DeriveCompletes
  intro s o h
  obtain ⟨d1, d2, k, hk, v, r, c, hd1, hd2, hkd, hv, hr, hc, heffect⟩ := effectDerive_in_numbers o
  refine ⟨d1, d2, k, hk, v, r, c, hd1, hd2, hkd, hv, hr, hc, ?_⟩
  rw [exec_inflight h, effectOf, heffect]
  rfl

/-- Settles O35: the erase of every register it names. -/
theorem zeroizeCompletes : Obligations.ZeroizeCompletes := by
  unfold Obligations.ZeroizeCompletes
  intro s o h
  refine ⟨_, _, _, fun n h => Vector.getElem_replicate h, fun n h => Vector.getElem_replicate h,
    fun n h => Vector.getElem_replicate h, ?_⟩
  rw [exec_inflight h, effectOf, effectZeroize, finish_setErased]
  rfl

/-- A block with other control state: CMD, the flags and the command in flight. -/
def Block.setControl (b : Block) (w : Word) (busy done err : Bool) (code : BitVec 4) (f : Option Inflight) : Block :=
  { b with cmd := w, busy := busy, done := done, err := err, errcode := code, inflight := f }

/-- An effect neither reads nor writes the control state, so setting it before the effect is setting it after. -/
theorem effectOf_setControl (i : Instr) (o : Operands) (b : Block) (w : Word) (busy done err : Bool) (code : BitVec 4)
    (f : Option Inflight) :
    effectOf i o (b.setControl w busy done err code f) = (effectOf i o b).setControl w busy done err code f := by
  unfold Block.setControl
  cases i with
  | cdiv => rw [effectOf, effectCdiv, effectCdiv, setCounter_eq, setCounter_eq]
  | hsha1 => rw [effectOf, effectHsha1, effectHsha1, setDigest1_eq, setDigest1_eq]
  | hmd5 => rw [effectOf, effectHmd5, effectHmd5, setDigest2_eq, setDigest2_eq]
  | trunc => rw [effectOf, effectTrunc, effectTrunc, truncateInto, truncateInto, setTruncated_eq, setTruncated_eq]
  | fmt => rw [effectOf, effectFmt, effectFmt, formatInto, formatInto, setCode_eq, setCode_eq]
  | derive => rw [effectOf, effectDerive_eq, effectDerive_eq, setDerived_eq, setDerived_eq]
  | totp =>
    rw [effectOf, effectTotp, effectTotp, effectDerive_eq, effectDerive_eq, setDerived_eq, setDerived_eq, setCounter_eq,
      setCounter_eq]
  | zeroize => rw [effectOf, effectZeroize, effectZeroize, setErased_eq, setErased_eq]

/-- A completion after any control state: it keeps CMD and the errors, and ends the flight. -/
theorem finish_effectOf_setControl (i : Instr) (o : Operands) (b : Block) (w : Word) (busy done err : Bool) (code : BitVec 4)
    (f : Option Inflight) :
    (effectOf i o (b.setControl w busy done err code f)).finish = (effectOf i o b).setControl w false true err code none := by
  rw [effectOf_setControl]
  rfl

/-- So what was in flight leaves no trace in the block. -/
theorem finish_effectOf_flight (i : Instr) (o : Operands) (b : Block) (f : Option Inflight) :
    (effectOf i o { b with inflight := f }).finish = (effectOf i o b).finish :=
  (finish_effectOf_setControl i o b b.cmd b.busy b.done b.err b.errcode f).trans
    (finish_effectOf_setControl i o b b.cmd b.busy b.done b.err b.errcode b.inflight).symm

/-- Settles O34: TOTP's effect is DERIVE's with the quotient as counter. -/
theorem totpCompletes : Obligations.TotpCompletes := by
  unfold Obligations.TotpCompletes
  intro s o h
  refine ⟨divideTime o, _, divideTime_toNat, exec_inflight h, ?_, ?_⟩
  · simp only [effectOf, effectTotp, effectDerive_eq, State.setBlk_blk, Block.finish_counter, Block.setCode_counter,
      Block.setTruncated_counter, Block.setDigest2_counter, Block.setDigest1_counter, Block.setCounter_counter]
  · rw [exec_inflight (i := .derive) rfl]
    have hflight := finish_effectOf_flight .derive { o with counter := divideTime o } (s.blk.setCounter (divideTime o))
    rw [setCounter_eq] at hflight
    simp only [State.setBlk, hflight]
    simp only [effectOf, effectTotp, setCounter_eq]

/-! ## The frame (R93) -/

/-- STATUS stands at 0x008 alone. -/
theorem ofOffset_eq_status {a : BitVec 12} (h : Reg.ofOffset a = .status) : a = 0x008 := by
  unfold Reg.ofOffset at h
  split at h
  case h_3 ha => exact BitVec.eq_of_toNat_eq ha
  case h_16 =>
    split at h
    · cases h
    · split at h
      · cases h
      · split at h <;> cases h
  all_goals cases h

/-- A completion keeps every register but STATUS that its command does not write. -/
theorem readReg_complete {i : Instr} {r : Reg} (o : Operands) (b : Block) (hstatus : r ≠ .status) (hw : writesReg i r = false) :
    (effectOf i o b).finish.readReg r = b.readReg r := by
  have hne : ∀ j, writesReg j r = true → i ≠ j := by
    rintro j hj rfl
    rw [hw] at hj
    cases hj
  obtain ⟨c, d1, d2, ofs, h, v, lo, hi, k, n, he, hc, hd1, hd2, htr, hcode, hkey⟩ := effectOf_cases i o b
  rw [he]
  cases r with
  | status => exact absurd rfl hstatus
  | counterLo | counterHi => rw [hc (hne _ rfl) (hne _ rfl)]; rfl
  | digest1 => rw [hd1 (hne _ rfl) (hne _ rfl) (hne _ rfl) (hne _ rfl)]; rfl
  | digest2 => rw [hd2 (hne _ rfl) (hne _ rfl) (hne _ rfl) (hne _ rfl)]; rfl
  | offset | header | result =>
    obtain ⟨rfl, rfl, rfl⟩ := htr (hne _ rfl) (hne _ rfl) (hne _ rfl) (hne _ rfl)
    rfl
  | codeLo | codeHi =>
    obtain ⟨rfl, rfl⟩ := hcode (hne _ rfl) (hne _ rfl) (hne _ rfl) (hne _ rfl)
    rfl
  | keylen =>
    obtain ⟨rfl, rfl⟩ := hkey (hne _ rfl)
    rfl
  | ident | ctrl | cmd | step | timeLo | timeHi | key | reserved => rfl

/-- Settles O36: register by register, and the fields no effect touches. -/
theorem commandFrame : Obligations.CommandFrame := by
  unfold Obligations.CommandFrame
  intro i s t ht
  obtain ⟨-, -, -, herr, hwerr, herrcode, -⟩ := effectOf_frame i s.blk.operands s.blk
  rw [exec_next ht]
  exact ⟨fun a ha hw => readReg_complete _ _ (fun h => ha (ofOffset_eq_status h)) hw, fun hz => (effectOf_key hz _ _).1,
    hwerr, herr, herrcode, rfl, rfl, rfl, rfl, rfl, rfl⟩

/-! ## The operands (R93, R97) -/

theorem divideTime_congr {o p : Operands} (ht : o.time = p.time) (hs : o.step = p.step) : divideTime o = divideTime p := by
  rw [divideTime, divideTime, ht, hs]

/-- DERIVE reads the secret and the counter. -/
theorem effectDerive_congr {o p : Operands} (hk : o.secret = p.secret) (hc : o.counter = p.counter) (b : Block) :
    effectDerive o b = effectDerive p b := by
  simp only [effectDerive, hk, hc]

/-- The counter is no part of the secret. -/
theorem secret_with_counter (o : Operands) (c : DWord) : ({ o with counter := c } : Operands).secret = o.secret := rfl

/-- An effect reads what the table of R93 lists. -/
theorem effectOf_congr {i : Instr} {o p : Operands} (h : sameReads i o p) (b : Block) : effectOf i o b = effectOf i p b := by
  unfold sameReads at h
  cases i with
  | cdiv => simp only [effectOf, effectCdiv, divideTime_congr h.1 h.2]
  | hsha1 => simp only [effectOf, effectHsha1, h.1, h.2]
  | hmd5 => simp only [effectOf, effectHmd5, h.1, h.2]
  | trunc => simp only [effectOf, effectTrunc, h]
  | fmt => simp only [effectOf, effectFmt, h]
  | derive => exact effectDerive_congr h.1 h.2 b
  | totp =>
    obtain ⟨hk, ht, hs⟩ := h
    rw [effectOf, effectTotp, effectTotp, divideTime_congr ht hs,
      effectDerive_congr ((secret_with_counter o _).trans (hk.trans (secret_with_counter p _).symm)) rfl]
  | zeroize => simp only [effectOf, effectZeroize]

/-- Settles O37: the effects are equal, and the snapshots, in which alone the blocks differ, are gone at completion. -/
theorem commandReadsOnlyItsOperands : Obligations.CommandReadsOnlyItsOperands := by
  unfold Obligations.CommandReadsOnlyItsOperands
  intro i s o p h
  rw [exec_inflight (i := i) (o := o) rfl, exec_inflight (i := i) (o := p) rfl, effectOf_congr h]
  have hflight := finish_effectOf_flight i p { s.blk with busy := true }
  simp only [State.withFlight, State.setBlk, hflight]

end Sys2Proof.Machine
end

section
/-! Whole-machine rules about one step: what changes BUSY, WERR and KEYLEN (10_state.md R23, R26, R31), that a command in flight
completes (30_encoding.md R98), and a write that races a completion (93_implementation_defined.md U9). -/

namespace Sys2Proof.Machine

/-! ## What the host's step does to the block, by register -/

/-- The host's step keeps the block, drops a write while BUSY = 1, or stores a word to a named register. -/
theorem hostStep_blk_cases (s : State) :
    (hostStep s).blk = s.blk ∨ (s.blk.busy = true ∧ (hostStep s).blk = s.blk.dropWrite) ∨
    ∃ r v rest, s.host.prog = .wr r.toOffset 0xF v :: rest ∧ (isInput r = false ∨ s.blk.busy = false) ∧
      (hostStep s).blk = s.blk.storeReg r v := by
  obtain hsame | ⟨a, m, v, rest, hp, hwrite⟩ := hostStep_blk s
  · exact .inl hsame
  rw [hwrite]
  obtain hsame | ⟨-, -, -, hb, hdrop⟩ | ⟨hlegal, -, hfree, hstore⟩ := busWrite_cases s.rstN s.blk a m v
  · exact .inl hsame
  · exact .inr (.inl ⟨hb, hdrop⟩)
  · obtain ⟨ha, rfl⟩ := (legalWrite_iff a m).1 hlegal
    cases hr : (Reg.ofOffset a).named with
    | true => exact .inr (.inr ⟨Reg.ofOffset a, v, rest, by rw [toOffset_ofOffset ha hr, hp], hfree, hstore⟩)
    | false =>
      have hres : Reg.ofOffset a = .reserved := by simpa [Reg.named] using hr
      rw [hstore, hres]
      exact .inl rfl

/-- An acceptance attempt keeps WERR and KEYLEN. -/
theorem accept_keeps (b : Block) (w : Word) : (b.accept w).werr = b.werr ∧ (b.accept w).keylen = b.keylen := by
  obtain ⟨-, hacc⟩ | ⟨i, -, -, -, hacc⟩ | ⟨i, -, -, hacc⟩ := accept_cases b w <;> rw [hacc] <;> exact ⟨rfl, rfl⟩

/-- Only a STATUS write stores to WERR. -/
theorem storeReg_werr {b : Block} {r : Reg} (v : Word) (h : r ≠ .status) : (b.storeReg r v).werr = b.werr := by
  cases r with
  | status => exact absurd rfl h
  | cmd => exact (accept_keeps _ v).1
  | step => rw [Block.storeReg]; split <;> rfl
  | ident | ctrl | keylen | timeLo | timeHi | counterLo | counterHi | offset | header | result => rfl
  | codeLo | codeHi | digest1 | digest2 | key | reserved => rfl

/-- Only a KEYLEN write stores to KEYLEN. -/
theorem storeReg_keylen {b : Block} {r : Reg} (v : Word) (h : r ≠ .keylen) : (b.storeReg r v).keylen = b.keylen := by
  cases r with
  | keylen => exact absurd rfl h
  | cmd => exact (accept_keeps _ v).2
  | step => rw [Block.storeReg]; split <;> rfl
  | ident | ctrl | status | timeLo | timeHi | counterLo | counterHi | offset | header | result => rfl
  | codeLo | codeHi | digest1 | digest2 | key | reserved => rfl

/-- Only a CMD write stores to BUSY. -/
theorem storeReg_busy {b : Block} {r : Reg} (v : Word) (h : r ≠ .cmd) : (b.storeReg r v).busy = b.busy := by
  cases r with
  | cmd => exact absurd rfl h
  | step => rw [Block.storeReg]; split <;> rfl
  | ident | ctrl | status | keylen | timeLo | timeHi | counterLo | counterHi | offset | header | result => rfl
  | codeLo | codeHi | digest1 | digest2 | key | reserved => rfl

/-- An attempt that leaves the idle block busy was accepted. -/
theorem accept_busy {b : Block} {w : Word} (hb : b.busy = false) (h : (b.accept w).busy = true) :
    ∃ i, decode w = .ok i ∧ (b.accept w).inflight = some ⟨i, b.snapshot⟩ := by
  obtain ⟨-, hacc⟩ | ⟨i, -, -, -, hacc⟩ | ⟨i, rfl, -, hacc⟩ := accept_cases b w
  · rw [hacc, Block.raise_busy, Block.clearForAccept_busy, hb] at h
    cases h
  · rw [hacc, Block.raise_busy, Block.clearForAccept_busy, hb] at h
    cases h
  · exact ⟨i, decode_encode i, by rw [hacc]; rfl⟩

/-! ## BUSY (R23) -/

/-- The host's step raises BUSY only by a CMD write. -/
theorem hostStep_raises_busy {s : State} (hb : s.blk.busy = false) (h : (hostStep s).blk.busy = true) :
    ∃ w rest i, s.host.prog = .wr 0x00C 0xF w :: rest ∧ decode w = .ok i ∧
      (hostStep s).blk.inflight = some ⟨i, s.blk.snapshot⟩ := by
  obtain hsame | ⟨hbusy, -⟩ | ⟨r, v, rest, hp, -, hstore⟩ := hostStep_blk_cases s
  · rw [hsame, hb] at h
    cases h
  · rw [hb] at hbusy
    cases hbusy
  · rw [hstore] at h ⊢
    by_cases hr : r = .cmd
    · subst hr
      obtain ⟨i, hdecode, hflight⟩ := accept_busy (b := { s.blk with cmd := v }) hb h
      exact ⟨v, rest, i, hp, hdecode, hflight⟩
    · rw [storeReg_busy v hr, hb] at h
      cases h

/-- The host's step never lowers BUSY. -/
theorem hostStep_keeps_busy {s : State} (hb : s.blk.busy = true) : (hostStep s).blk.busy = true := by
  obtain hsame | ⟨a, m, v, _, -, hwrite⟩ := hostStep_blk s
  · rw [hsame, hb]
  · rw [hwrite]
    exact (busWrite_keeps_flight hb _ a m v).1

/-- The engine's step never raises BUSY. -/
theorem engineStep_keeps_idle {s t : State} (hb : s.blk.busy = false) (h : engineStep s = .next t) : t.blk.busy = false := by
  rw [engineStep_idle hb] at h
  cases h
  exact hb

/-- Settles O56: agent by agent; only the host can raise BUSY, and it cannot lower it. -/
theorem busyChangesOnlySo : Obligations.BusyChangesOnlySo := by
  unfold Obligations.BusyChangesOnlySo
  intro s t _ ht
  obtain ⟨sc, ⟨hmoves, hstep⟩ | ⟨hmoves, hstep⟩ | ⟨hmoves, hstep⟩ | hstep⟩ := step_agents s <;> rw [hstep] at ht
  · cases ht
    refine ⟨fun hb hbusy => ⟨hmoves, hostStep_raises_busy (s := { s with sched := sc }) hb hbusy⟩, fun hb hidle => ?_⟩
    exact absurd ((hostStep_keeps_busy (s := { s with sched := sc }) hb).symm.trans hidle) (by decide)
  · refine ⟨fun hb hbusy => ?_, fun _ _ => .inl hmoves⟩
    rw [engineStep_keeps_idle (s := { s with sched := sc }) hb ht] at hbusy
    cases hbusy
  · cases ht
    exact ⟨fun _ hbusy => (nomatch hbusy), fun _ _ => .inr hmoves⟩
  · cases ht
    refine ⟨fun hb hbusy => ?_, fun hb hidle => ?_⟩
    · exact absurd (hb.symm.trans hbusy) (by decide)
    · exact absurd (hb.symm.trans hidle) (by decide)

/-! ## WERR (R26) -/

/-- The host's step clears WERR only by writing STATUS with bit 3. -/
theorem hostStep_clears_werr {s : State} (hw : s.blk.werr = true) (h : (hostStep s).blk.werr = false) :
    ∃ w rest, s.host.prog = .wr 0x008 0xF w :: rest ∧ w.toNat / 8 % 2 = 1 := by
  obtain hsame | ⟨-, hdrop⟩ | ⟨r, v, rest, hp, -, hstore⟩ := hostStep_blk_cases s
  · rw [hsame, hw] at h
    cases h
  · rw [hdrop] at h
    cases h
  · rw [hstore] at h
    by_cases hr : r = .status
    · subst hr
      refine ⟨v, rest, hp, ?_⟩
      by_contra hbit
      have hkept := (cleared_by_bit_iff s.blk.werr v (k := 3) (by omega)).2 ⟨hw, by omega⟩
      exact absurd (hkept.symm.trans h) (by decide)
    · rw [storeReg_werr v hr, hw] at h
      cases h

/-- The engine's step keeps WERR. -/
theorem engineStep_werr {s t : State} (h : engineStep s = .next t) : t.blk.werr = s.blk.werr := by
  obtain hidle | ⟨f, -, -, hdone⟩ := engineStep_cases s
  · rw [hidle] at h
    cases h
    rfl
  · rw [hdone] at h
    cases h
    obtain ⟨-, -, -, -, hwerr, -⟩ := effectOf_frame f.op f.snap s.blk
    exact hwerr

/-- Settles O57: agent by agent; neither the engine nor the release of reset touches WERR. -/
theorem writeErrorIsSticky : Obligations.WriteErrorIsSticky := by
  unfold Obligations.WriteErrorIsSticky
  intro s t ht hw hclear
  obtain ⟨sc, ⟨hmoves, hstep⟩ | ⟨-, hstep⟩ | ⟨hmoves, -⟩ | hstep⟩ := step_agents s
  · rw [hstep] at ht
    cases ht
    exact .inr ⟨hmoves, hostStep_clears_werr (s := { s with sched := sc }) hw hclear⟩
  · rw [hstep] at ht
    exact absurd (hw.symm.trans ((engineStep_werr ht).symm.trans hclear)) (by decide)
  · exact .inl hmoves
  · rw [hstep] at ht
    cases ht
    exact absurd (hw.symm.trans hclear) (by decide)

/-! ## KEYLEN (R31) -/

/-- The host's step changes KEYLEN only by writing it to the idle block. -/
theorem hostStep_changes_keylen {s : State} (h : (hostStep s).blk.keylen ≠ s.blk.keylen) :
    s.blk.busy = false ∧ ∃ rest, s.host.prog = .wr 0x014 0xF (hostStep s).blk.keylen :: rest := by
  obtain hsame | ⟨-, hdrop⟩ | ⟨r, v, rest, hp, hfree, hstore⟩ := hostStep_blk_cases s
  · exact absurd (congrArg Block.keylen hsame) h
  · exact absurd (congrArg Block.keylen hdrop) h
  · rw [hstore] at h ⊢
    have hr : r = .keylen := by
      by_contra hr
      exact h (storeReg_keylen v hr)
    subst hr
    exact ⟨hfree.resolve_left (by decide), rest, hp⟩

/-- The engine's step changes KEYLEN only by completing ZEROIZE. -/
theorem engineStep_changes_keylen {s t : State} (ht : engineStep s = .next t) (h : t.blk.keylen ≠ s.blk.keylen) :
    t.blk.keylen = 0 ∧ ∃ o, s.blk.inflight = some ⟨.zeroize, o⟩ := by
  obtain hidle | ⟨⟨i, o⟩, -, hflight, hdone⟩ := engineStep_cases s
  · rw [hidle] at ht
    cases ht
    exact absurd rfl h
  · rw [hdone] at ht
    cases ht
    have hi : i = .zeroize := by
      by_contra hi
      exact h (effectOf_key hi o s.blk).2
    subst hi
    exact ⟨rfl, o, hflight⟩

/-- Settles O58: agent by agent. -/
theorem keylenChangesOnlySo : Obligations.KeylenChangesOnlySo := by
  unfold Obligations.KeylenChangesOnlySo
  intro s t _ ht hne
  obtain ⟨sc, ⟨hmoves, hstep⟩ | ⟨hmoves, hstep⟩ | ⟨hmoves, -⟩ | hstep⟩ := step_agents s
  · rw [hstep] at ht
    cases ht
    exact .inr (.inl ⟨hmoves, hostStep_changes_keylen (s := { s with sched := sc }) hne⟩)
  · rw [hstep] at ht
    exact .inr (.inr ⟨hmoves, engineStep_changes_keylen (s := { s with sched := sc }) ht hne⟩)
  · exact .inl hmoves
  · rw [hstep] at ht
    cases ht
    exact absurd rfl hne

/-! ## A command in flight completes (R98) -/

/-- The engine's step with the invariant ends BUSY. -/
theorem engineStep_completes {s : State} (h : FlightInv s.blk) (hb : s.blk.busy = true) :
    ∃ t, engineStep s = .next t ∧ t.blk.busy = false := by
  obtain ⟨f, hf⟩ := Option.isSome_iff_exists.1 (h.busyInflight ▸ hb)
  exact ⟨_, (engineStep_inflight hb hf).trans (exec_eq _ _), rfl⟩

/-- The step of an event takes nothing more off the interleaving. -/
theorem eventStep_sched {e : Event} {s t : State} (h : eventStep e s = .next t) : t.sched = s.sched := by
  cases e with
  | host => cases h; exact (hostStep_frame s).1
  | engine =>
    obtain hidle | ⟨f, -, -, hdone⟩ := engineStep_cases s
    · cases hidle.symm.trans h
      rfl
    · cases hdone.symm.trans h
      rfl
  | resetLow => cases h; rfl
  | resetHigh => cases h; rfl

/-- Settles O52: by induction on the interleaving; whoever moves, BUSY has ended or the invariant holds with one event fewer,
and the engine moves when none is left. -/
theorem commandInFlightCompletes : Obligations.CommandInFlightCompletes := by
  unfold Obligations.CommandInFlightCompletes
  intro s
  induction hs : s.sched generalizing s with
  | nil =>
    intro h hb
    obtain ⟨t, ht, hidle⟩ := engineStep_completes h.flight hb
    exact ⟨1, t, le_rfl, run_succ 0 ((step_nil_busy hs hb).trans ht), hidle⟩
  | cons e sc ih =>
    intro h hb
    obtain ⟨t, ht⟩ := noStepStops s
    have hsched : t.sched = sc := eventStep_sched (s := { s with sched := sc }) ((step_cons hs).symm.trans ht)
    cases hidle : t.blk.busy with
    | false => exact ⟨1, t, by simp, run_succ 0 ht, hidle⟩
    | true =>
      obtain ⟨k, u, hk, hu, hubusy⟩ := ih t hsched (stepKeepsInv s t h ht) hidle
      exact ⟨k + 1, u, by simpa using hk, (run_succ k ht).trans hu, hubusy⟩

/-! ## A write racing a completion (U9) -/

/-- The scheduled completion of the command in flight. -/
theorem step_complete {s : State} {i : Instr} {o : Operands} {sc : List Event} (hs : s.sched = .engine :: sc)
    (hb : s.blk.busy = true) (hf : s.blk.inflight = some ⟨i, o⟩) :
    step s = .next { s with blk := (effectOf i o s.blk).finish, sched := sc } :=
  (step_engine hs hb hf).trans (exec_inflight (s := { s with sched := sc }) hf)

section
variable {s : State} {w : Word} {i : Instr} {o : Operands} (hn : s.rstN = true) (hb : s.blk.busy = true)
  (hf : s.blk.inflight = some ⟨i, o⟩) (hp : s.host.prog = [.wr 0x020 0xF w])
include hn hb hf hp

/-- A COUNTER_LO write before the completion is dropped. -/
theorem run_counterWrite_completion : ∃ t, run 2 { s with sched := [.host, .engine] } = .next t ∧
    t.blk = (effectOf i o { s.blk with werr := true }).finish := by
  have hdropped : busWrite true s.blk 0x020 0xF w = { s.blk with werr := true } := by
    rw [busWrite_legal _ _ rfl, memWrite_dropped w (by unfold inputOffset wordOffset; decide) hb]
  have hfirst := step_host_wr (s := { s with sched := [.host, .engine] }) rfl hp
  refine ⟨_, (run_two hfirst).trans (step_complete (i := i) (o := o) rfl ?_ ?_), ?_⟩ <;>
    simp only [hostWrite_blk, hn, hdropped, hb, hf]

/-- After the completion it lands. -/
theorem run_completion_counterWrite : ∃ t, run 2 { s with sched := [.engine, .host] } = .next t ∧
    t.blk = { (effectOf i o s.blk).finish with
      counter := BitVec.ofNat 64 ((effectOf i o s.blk).finish.counter.toNat / 2 ^ 32 * 2 ^ 32 + w.toNat) } := by
  have hfirst := step_complete (s := { s with sched := [.engine, .host] }) rfl hb hf
  have hlands : busWrite true (effectOf i o s.blk).finish 0x020 0xF w = { (effectOf i o s.blk).finish with
      counter := BitVec.ofNat 64 ((effectOf i o s.blk).finish.counter.toNat / 2 ^ 32 * 2 ^ 32 + w.toNat) } := by
    rw [busWrite_legal _ _ rfl, memWrite_idle w (Block.finish_busy _) ofOffset_counterLo, Block.storeReg, setLow_eq_ofNat]
  refine ⟨_, (run_two hfirst).trans (step_host_wr rfl hp), ?_⟩
  rw [← hlands, ← hn]
  rfl

end

/-- Settles O55: the two orders of the write and the completion, whose results are functions of the snapshot. -/
theorem racingCounterWrite : Obligations.RacingCounterWrite := by
  unfold Obligations.RacingCounterWrite
  intro s w o hn hb hf hp
  obtain ⟨d1, d2, k, hk, h, r, c, hd1, hd2, hkd, hh, hr, hc, heffect⟩ := effectDerive_in_numbers o
  obtain ⟨t, ht, htblk⟩ := run_counterWrite_completion hn hb hf hp
  obtain ⟨u, hu, hublk⟩ := run_completion_counterWrite hn hb hf hp
  rw [effectOf, heffect] at htblk hublk
  refine ⟨t, u, d1, d2, k, hk, h, r, c, ht, hu, hd1, hd2, hkd, hh, hr, hc, htblk, ?_⟩
  rw [hublk, htblk]

end Sys2Proof.Machine
end

section
/-! What the transactions of a host program load into an idle block: LD64 and LDKEY (30_encoding.md R100). -/

namespace Sys2Proof.Machine

/-- The host is about to run `prog` on an idle block out of reset, with no interleaving left to follow. -/
structure RunsAlone (s : State) (prog : List HostOp) : Prop where
  running : s.rstN = true
  idle    : s.blk.busy = false
  prog    : s.host.prog = prog
  alone   : s.sched = []

theorem runsAlone_load {s : State} (hn : s.rstN = true) (hb : s.blk.busy = false) (prog : List HostOp) :
    RunsAlone (s.load prog []) prog := ⟨hn, hb, rfl, rfl⟩

/-- A write that does not start a command is one step, after which the host is about to run the rest. -/
theorem RunsAlone.write {s : State} {r : Reg} {v : Word} {rest : List HostOp} (h : RunsAlone s (wrOp r v :: rest))
    (hr : r.named = true) (hcmd : r ≠ .cmd) :
    ∃ t, step s = .next t ∧ RunsAlone t rest ∧ t.blk = s.blk.storeReg r v := by
  obtain ⟨ha, hreg⟩ := ofOffset_toOffset hr
  have hblk : busWrite s.rstN s.blk r.toOffset allStrobes v = s.blk.storeReg r v := by
    have hlegal : legalWrite r.toOffset allStrobes = true := (legalWrite_iff _ _).2 ⟨ha, rfl⟩
    rw [h.running, busWrite_legal _ _ hlegal, memWrite_idle v h.idle hreg]
  have hidle : (busWrite s.rstN s.blk r.toOffset allStrobes v).busy = false := by rw [hblk, storeReg_busy v hcmd, h.idle]
  exact ⟨_, (step_nil_idle h.alone h.idle).trans (congrArg _ (hostStep_wr h.prog)), ⟨h.running, hidle, rfl, h.alone⟩, hblk⟩

/-! ## LD64 (R100, 20_memory.md R68) -/

/-- Both halves written are the whole value. -/
theorem setHigh_setLow (x : DWord) {v : Nat} (hv : v < 2 ^ 64) :
    setHigh (setLow x (BitVec.ofNat 32 (v % 2 ^ 32))) (BitVec.ofNat 32 (v / 2 ^ 32)) = BitVec.ofNat 64 v := by
  have := x.isLt
  rw [setHigh_eq_ofNat, setLow_eq_ofNat]
  simp only [BitVec.toNat_ofNat]
  congr 1
  omega

/-- Settles O60: two writes of the idle block, one step each. -/
theorem ld64LoadsBothHalves : Obligations.Ld64LoadsBothHalves := by
  unfold Obligations.Ld64LoadsBothHalves
  intro s v hn hb hv
  constructor
  · obtain ⟨t, ht, hrest, htblk⟩ := (runsAlone_load hn hb _).write (r := .timeLo) rfl (by decide)
    obtain ⟨u, hu, hdone, hublk⟩ := hrest.write (r := .timeHi) rfl (by decide)
    refine ⟨u, (run_two ht).trans hu, hdone.prog, ?_⟩
    rw [hublk, htblk, Block.storeReg, Block.storeReg, setHigh_setLow _ hv, State.load_blk]
  · obtain ⟨t, ht, hrest, htblk⟩ := (runsAlone_load hn hb _).write (r := .counterLo) rfl (by decide)
    obtain ⟨u, hu, hdone, hublk⟩ := hrest.write (r := .counterHi) rfl (by decide)
    refine ⟨u, (run_two ht).trans hu, hdone.prog, ?_⟩
    rw [hublk, htblk, Block.storeReg, Block.storeReg, setHigh_setLow _ hv, State.load_blk]

/-! ## LDKEY's words (R100) -/

/-- The words hold four bytes each. -/
theorem length_keyWords : ∀ bytes : List Nat, (keyWords bytes).length = (bytes.length + 3) / 4
  | [] | [_] | [_, _] | [_, _, _] => by simp [keyWords]
  | _ :: _ :: _ :: _ :: rest => by
    simp only [keyWords, List.length_cons, length_keyWords rest]
    omega

/-- Byte `k` of the text; missing bytes are 0x00. -/
def textByte (bytes : List Nat) (k : Nat) : Byte := BitVec.ofNat 8 (bytes.getD k 0)

/-- The first word holds the first four bytes. -/
theorem keyWords_eq_cons : ∀ {bytes : List Nat}, bytes ≠ [] → keyWords bytes =
    be32 (textByte bytes 0) (textByte bytes 1) (textByte bytes 2) (textByte bytes 3) :: keyWords (bytes.drop 4)
  | [], h => absurd rfl h
  | [_], _ | [_, _], _ | [_, _, _], _ => by simp [keyWords, textByte]
  | _ :: _ :: _ :: _ :: _, _ => by simp [keyWords, textByte]

/-- Byte `j` of the text stands in word `j / 4`, at place `j % 4`. -/
theorem beByte_keyWords (bytes : List Nat) (j : Nat) (h : j < bytes.length) :
    beByte ((keyWords bytes).getD (j / 4) 0) ⟨j % 4, by omega⟩ = BitVec.ofNat 8 bytes[j] := by
  rw [keyWords_eq_cons (List.ne_nil_of_length_pos (by omega))]
  by_cases hj : j < 4
  · have hbyte : BitVec.ofNat 8 bytes[j] = textByte bytes j := by rw [textByte, List.getD_eq_getElem]
    have hword : j / 4 = 0 := by omega
    rw [hword, List.getD_cons_zero, beByte_be32, hbyte]
    interval_cases j <;> rfl
  · have hrest := beByte_keyWords (bytes.drop 4) (j - 4) (by rw [List.length_drop]; omega)
    have hword : j / 4 = (j - 4) / 4 + 1 := by omega
    have hplace : (j - 4) % 4 = j % 4 := by omega
    have hindex : 4 + (j - 4) = j := by omega
    simp only [hplace, List.getElem_drop, hindex] at hrest
    rw [hword, List.getD_cons_succ, hrest]
termination_by j

/-! ## LDKEY's writes -/

/-- The key buffer with a list of words written from word `i` on. -/
def storeKeyWords (k : Vector Byte 256) : (i : Nat) → List Word → Vector Byte 256
  | _, [] => k
  | i, w :: ws => storeKeyWords (setKeyWord k (Fin.ofNat 64 i) w) (i + 1) ws

/-- A byte of the buffer is its written word's, or what it was. -/
theorem getElem_storeKeyWords {ws : List Word} {k : Vector Byte 256} {i n : Nat} (hi : i + ws.length ≤ 64) (hn : n < 256) :
    (storeKeyWords k i ws)[n] =
      if i ≤ n / 4 ∧ n / 4 < i + ws.length then beByte (ws.getD (n / 4 - i) 0) ⟨n % 4, by omega⟩ else k[n] := by
  induction ws generalizing k i with
  | nil => simp [storeKeyWords]
  | cons w ws ih =>
    rw [List.length_cons] at hi ⊢
    have hindex : (Fin.ofNat 64 i).val = i := Nat.mod_eq_of_lt (by omega)
    rw [storeKeyWords, ih (by omega), getElem_setKeyWord, hindex]
    obtain hbelow | hhere | habove : n / 4 < i ∨ n / 4 = i ∨ i < n / 4 := by omega
    · rw [if_neg (by omega), if_neg (by omega), if_neg (by omega)]
    · rw [if_neg (by omega), if_pos hhere, if_pos (by omega), hhere, Nat.sub_self, List.getD_cons_zero]
    · have hword : n / 4 - i = n / 4 - (i + 1) + 1 := by omega
      have hrange : (i ≤ n / 4 ∧ n / 4 < i + (ws.length + 1)) ↔ (i + 1 ≤ n / 4 ∧ n / 4 < i + 1 + ws.length) := by omega
      rw [if_neg (c := n / 4 = i) (by omega), hword, List.getD_cons_succ]
      simp only [hrange]

/-- KEY_i by its number. -/
theorem keyWrites_cons {i : Nat} (hi : i < 64) (w : Word) (ws : List Word) :
    keyWrites i (w :: ws) = wrOp (.key (Fin.ofNat 64 i)) w :: keyWrites (i + 1) ws := by
  have hidx : (Fin.ofNat 64 i).val = i := Nat.mod_eq_of_lt hi
  rw [keyWrites, wrOp, Reg.toOffset, hidx]

/-- The writes of a list of words to KEY, by induction on the list. -/
theorem RunsAlone.run_keyWrites {s : State} {i : Nat} {ws : List Word} (h : RunsAlone s (keyWrites i ws)) (hi : i + ws.length ≤ 64) :
    ∃ t, run ws.length s = .next t ∧ RunsAlone t [] ∧ t.blk = { s.blk with key := storeKeyWords s.blk.key i ws } := by
  induction ws generalizing s i with
  | nil => exact ⟨s, rfl, h, rfl⟩
  | cons w ws ih =>
    rw [List.length_cons] at hi
    rw [keyWrites_cons (by omega)] at h
    obtain ⟨t, ht, hrest, htblk⟩ := h.write rfl (by simp)
    obtain ⟨u, hu, hdone, hublk⟩ := ih hrest (by omega)
    refine ⟨u, (run_succ _ ht).trans hu, hdone, ?_⟩
    rw [hublk, htblk, Block.storeReg, storeKeyWords]

theorem length_keyWrites (i : Nat) (ws : List Word) : (keyWrites i ws).length = ws.length := by
  induction ws generalizing i with
  | nil => rfl
  | cons w ws ih => rw [keyWrites, List.length_cons, ih, List.length_cons]

/-- Settles O59: KEYLEN's write, then the words; the secret is the buffer's bytes below KEYLEN, each a byte of the text. -/
theorem ldkeyLoadsTheSecret : Obligations.LdkeyLoadsTheSecret := by
  unfold Obligations.LdkeyLoadsTheSecret
  intro s bytes hn hb hwf
  have hlen : bytes.length ≤ 256 := by
    rw [Stmt.wf, Bool.and_eq_true] at hwf
    exact of_decide_eq_true hwf.1
  have hwords := length_keyWords bytes
  obtain ⟨t, ht, hrest, htblk⟩ := (runsAlone_load hn hb (expand (.ldkey bytes))).write (r := .keylen) rfl (by decide)
  obtain ⟨u, hu, hdone, hublk⟩ := hrest.run_keyWrites (by omega)
  have hkeylen : u.blk.keylen.toNat = bytes.length := by
    rw [hublk, htblk]
    exact Nat.mod_eq_of_lt (by omega)
  refine ⟨u, ?_, hdone.prog, hkeylen, ?_⟩
  · rw [expand, List.length_cons, length_keyWrites]
    exact (run_succ _ ht).trans hu
  · have hsecret : u.blk.snapshot.secret.length = bytes.length := by
      rw [length_secret, Block.snapshot_keylen]
      omega
    refine List.ext_getElem (by rw [hsecret, List.length_map]) fun n h1 h2 => ?_
    rw [hsecret] at h1
    have hkey : u.blk.key = storeKeyWords t.blk.key 0 (keyWords bytes) := by rw [hublk]
    simp only [getElem_secret, List.getElem_map, Block.snapshot_key, hkey]
    rw [getElem_storeKeyWords (by omega) (by omega), if_pos (by omega), Nat.sub_zero, beByte_keyWords]

end Sys2Proof.Machine
end

section
/-! Polled sequences of commands: DERIVE against its stages and TOTP against CDIV and DERIVE (44_composite_control.md R195), for every
interleaving of host and engine. -/

namespace Sys2Proof.Machine

/-! ## Runs -/

/-- Some number of steps leads from one state to the other. -/
def Reaches (s t : State) : Prop := ∃ k, run k s = .next t

theorem Reaches.refl (s : State) : Reaches s s := ⟨0, rfl⟩

theorem Reaches.step {s t u : State} (h : step s = .next t) : Reaches t u → Reaches s u
  | ⟨k, hk⟩ => ⟨k + 1, (run_succ k h).trans hk⟩

theorem Reaches.trans {s t u : State} (hst : Reaches s t) (htu : Reaches t u) : Reaches s u := by
  obtain ⟨k, hk⟩ := hst
  induction k generalizing s with
  | zero =>
    cases hk
    exact htu
  | succ k ih =>
    obtain ⟨v, hv⟩ := noStepStops s
    rw [run_succ k hv] at hk
    exact .step hv (ih hk)

theorem withoutReset_of_cons {e : Event} {sc : List Event} (h : withoutReset (e :: sc)) : withoutReset sc :=
  fun f hf => h f (List.mem_cons_of_mem e hf)

/-! ## The turns of host and engine -/

/-- The host is about to run `prog` out of reset, and no reset is to come. -/
structure Hosts (s : State) (prog : List HostOp) : Prop where
  running : s.rstN = true
  prog    : s.host.prog = prog
  free    : withoutReset s.sched

/-- While the block is idle only the host moves it: after some empty engine turns the host's is next. -/
theorem host_gets_turn {s : State} (hb : s.blk.busy = false) (hfree : withoutReset s.sched) :
    ∃ sc, withoutReset sc ∧ Reaches s (hostStep { s with sched := sc }) := by
  induction hs : s.sched generalizing s with
  | nil =>
    refine ⟨[], hs ▸ hfree, .step (step_nil_idle hs hb) ?_⟩
    rw [← hs]
    exact .refl _
  | cons e sc ih =>
    rw [hs] at hfree
    have hrest := withoutReset_of_cons hfree
    obtain rfl | rfl := hfree e List.mem_cons_self
    · exact ⟨sc, hrest, .step (step_host hs) (.refl _)⟩
    · obtain ⟨sc', hfree', hreach⟩ := ih (s := { s with sched := sc }) hb hrest rfl
      exact ⟨sc', hfree', .step ((step_cons hs).trans (engineStep_idle (s := { s with sched := sc }) hb)) hreach⟩

/-- A host turn at POLL while BUSY = 1 changes neither the block nor the program. -/
theorem step_poll_busy {s : State} {sc : List Event} {rest : List HostOp} (hs : s.sched = .host :: sc)
    (hp : s.host.prog = .poll :: rest) (hn : s.rstN = true) (hb : s.blk.busy = true) :
    ∃ t, step s = .next t ∧ t.blk = s.blk ∧ t.rstN = true ∧ t.host.prog = .poll :: rest ∧ t.sched = sc := by
  refine ⟨_, step_host hs, ?_⟩
  rw [hostStep_poll (s := { s with sched := sc }) hp hn]
  exact ⟨rfl, hn, if_pos hb, rfl⟩

/-- While a command is in flight the host polls in vain: after some of its turns the engine completes the command. -/
theorem engine_gets_turn {s : State} {i : Instr} {o : Operands} {rest : List HostOp} (h : Hosts s (.poll :: rest))
    (hb : s.blk.busy = true) (hf : s.blk.inflight = some ⟨i, o⟩) :
    ∃ t, Reaches s t ∧ Hosts t (.poll :: rest) ∧ t.blk = (effectOf i o s.blk).finish := by
  obtain ⟨hn, hp, hfree⟩ := h
  induction hs : s.sched generalizing s with
  | nil =>
    have hstep := (step_nil_busy hs hb).trans ((engineStep_inflight hb hf).trans (exec_inflight hf))
    exact ⟨_, .step hstep (.refl _), ⟨hn, hp, hfree⟩, rfl⟩
  | cons e sc ih =>
    rw [hs] at hfree
    have hrest := withoutReset_of_cons hfree
    obtain rfl | rfl := hfree e List.mem_cons_self
    · obtain ⟨u, hstep, hublk, hn', hp', hsched⟩ := step_poll_busy hs hp hn hb
      obtain ⟨t, hreach, hhosts, hblk⟩ := ih (hublk ▸ hb) (hublk ▸ hf) hn' hp' (hsched ▸ hrest) hsched
      exact ⟨t, .step hstep hreach, hhosts, hublk ▸ hblk⟩
    · exact ⟨_, .step (step_complete hs hb hf) (.refl _), ⟨hn, hp, hrest⟩, rfl⟩

/-- POLL on the idle block is done after the host's next turn. -/
theorem poll_ends {s : State} {rest : List HostOp} (h : Hosts s (.poll :: rest)) (hb : s.blk.busy = false) :
    ∃ t, Reaches s t ∧ Hosts t rest ∧ t.blk = s.blk := by
  obtain ⟨sc, hfree, hreach⟩ := host_gets_turn hb h.free
  rw [hostStep_poll (s := { s with sched := sc }) h.prog h.running] at hreach
  exact ⟨_, hreach, ⟨h.running, if_neg (by simp [hb]), hfree⟩, rfl⟩

/-! ## A polled command -/

/-- The idle block after command `i` ran on the registers as they were: its effect, and the control state of a completion. -/
def Block.ran (b : Block) (i : Instr) : Block :=
  (effectOf i b.snapshot b).setControl (encode i) false true false 0 none

/-- A command issued to the idle block is in flight after the host's next turn. -/
theorem issue_starts {s : State} {i : Instr} {rest : List HostOp} (h : Hosts s (wrOp .cmd (encode i) :: rest))
    (hb : s.blk.busy = false) (hk : readsKeylen i = true → s.blk.keylen.toNat ≤ 256) :
    ∃ t, Reaches s t ∧ Hosts t rest ∧ t.blk = s.blk.setControl (encode i) true false false 0 (some ⟨i, s.blk.snapshot⟩) := by
  obtain ⟨sc, hfree, hreach⟩ := host_gets_turn hb h.free
  rw [hostStep_wr (s := { s with sched := sc }) h.prog] at hreach
  refine ⟨_, hreach, ⟨h.running, rfl, hfree⟩, ?_⟩
  rw [hostWrite_blk, h.running]
  exact busWrite_cmd_ok hb hk

/-- A command, issued and polled on the idle block, runs to its end whatever the interleaving. -/
theorem issue_poll_runs {s : State} {i : Instr} {rest : List HostOp} (h : Hosts s (wrOp .cmd (encode i) :: .poll :: rest))
    (hb : s.blk.busy = false) (hk : readsKeylen i = true → s.blk.keylen.toNat ≤ 256) :
    ∃ t, Reaches s t ∧ Hosts t rest ∧ t.blk = s.blk.ran i := by
  obtain ⟨t, hissued, hpolls, htblk⟩ := issue_starts h hb hk
  obtain ⟨u, hcompleted, hends, hublk⟩ :=
    engine_gets_turn (i := i) (o := s.blk.snapshot) hpolls (by rw [htblk]; rfl) (by rw [htblk]; rfl)
  obtain ⟨v, hpolled, hhosts, hvblk⟩ := poll_ends hends (by rw [hublk]; rfl)
  refine ⟨v, hissued.trans (hcompleted.trans hpolled), hhosts, ?_⟩
  rw [hvblk, hublk, htblk, finish_effectOf_setControl, Block.ran]

/-! ## The values the commands hand on -/

theorem ran_busy (b : Block) (i : Instr) : (b.ran i).busy = false := rfl

/-- Only ZEROIZE of the commands changes KEYLEN, so a polled sequence keeps it legal. -/
theorem ran_keylen {i : Instr} (hz : i ≠ .zeroize) (b : Block) : (b.ran i).keylen = b.keylen := (effectOf_key hz _ _).2

section
variable (b : Block) (w : Word) (busy done err : Bool) (code : BitVec 4) (f : Option Inflight)
@[simp] theorem setControl_counter : (b.setControl w busy done err code f).counter = b.counter := rfl
@[simp] theorem setControl_digest1 : (b.setControl w busy done err code f).digest1 = b.digest1 := rfl
@[simp] theorem setControl_digest2 : (b.setControl w busy done err code f).digest2 = b.digest2 := rfl
@[simp] theorem setControl_result : (b.setControl w busy done err code f).result = b.result := rfl
end

section
variable (b : Block)

theorem ran_hsha1 : b.ran .hsha1 = (b.setDigest1 (derivedDigest1 b.snapshot)).setControl 0x2 false true false 0 none := rfl

theorem ran_hmd5 : b.ran .hmd5 =
    (b.setDigest2 (hmacMd5 b.digest1.toList (counterBytes b.counter))).setControl 0x3 false true false 0 none := rfl

theorem ran_trunc : b.ran .trunc =
    (b.setTruncated (offsetOf b.digest2) (headerAt b.digest2 (offsetOf b.digest2))
      (resultOf (headerAt b.digest2 (offsetOf b.digest2)))).setControl 0x4 false true false 0 none := rfl

theorem ran_fmt : b.ran .fmt =
    (b.setCode (be32 (digit b.result 0) (digit b.result 1) (digit b.result 2) (digit b.result 3))
      (be32 (digit b.result 4) (digit b.result 5) 0 0)).setControl 0x5 false true false 0 none := rfl

end

/-- The four stages, for values that stay variables, write what one composite writes. -/
theorem stages_eq_composite (b : Block) (d1 : Vector Byte 20) (d2 : Vector Byte 16) (o : BitVec 3) (h : Word) (r : BitVec 20)
    (lo hi w1 w2 w3 w4 w5 : Word) :
    ((((((((b.setDigest1 d1).setControl w1 false true false 0 none).setDigest2 d2).setControl w2 false true false 0 none).setTruncated
      o h r).setControl w3 false true false 0 none).setCode lo hi).setControl w4 false true false 0 none) =
    { ((((b.setDigest1 d1).setDigest2 d2).setTruncated o h r).setCode lo hi).setControl w5 false true false 0 none with
      cmd := w4 } := rfl

theorem ran_stages (b : Block) : (((b.ran .hsha1).ran .hmd5).ran .trunc).ran .fmt = { b.ran .derive with cmd := 0x5 } := by
  have hd2 : hmacMd5 (derivedDigest1 b.snapshot).toList (counterBytes b.counter) = derivedDigest2 b.snapshot := rfl
  rw [ran_hsha1, ran_hmd5, ran_trunc, ran_fmt, Block.ran, effectOf, effectDerive_eq]
  simp only [setControl_counter, setControl_digest1, setControl_digest2, setControl_result, Block.setDigest1_digest1,
    Block.setDigest1_counter, Block.setDigest2_digest2, Block.setTruncated_result, hd2]
  exact stages_eq_composite _ _ _ _ _ _ _ _ _ _ _ _ _

theorem ran_cdiv_derive (b : Block) : (b.ran .cdiv).ran .derive = { b.ran .totp with cmd := 0x6 } := by
  have hcdiv : b.ran .cdiv = (b.setCounter (divideTime b.snapshot)).setControl 0x1 false true false 0 none := rfl
  have htotp : effectOf .totp b.snapshot b =
      effectOf .derive { b.snapshot with counter := divideTime b.snapshot } (b.setCounter (divideTime b.snapshot)) := by
    unfold effectOf effectTotp
    rfl
  rw [hcdiv, Block.ran, effectOf_setControl, Block.ran, htotp]
  rfl

/-! ## The sequences (R195) -/

theorem hosts_load {s : State} {sc : List Event} (hn : s.rstN = true) (hsc : withoutReset sc) (prog : List HostOp) :
    Hosts (s.load prog sc) prog := ⟨hn, rfl, hsc⟩

/-- Settles O48: each stage hands its digest or result on in its register. -/
theorem deriveEqualsItsStages : Obligations.DeriveEqualsItsStages := by
  unfold Obligations.DeriveEqualsItsStages
  intro s sc sd hsc hsd hn hb hk
  obtain ⟨t1, hreach1, hhosts1, hblk1⟩ := issue_poll_runs (i := .hsha1) (hosts_load hn hsc _) hb (fun _ => hk)
  obtain ⟨t2, hreach2, hhosts2, hblk2⟩ := issue_poll_runs (i := .hmd5) hhosts1 (hblk1 ▸ ran_busy _ _) (fun h => nomatch h)
  obtain ⟨t3, hreach3, hhosts3, hblk3⟩ := issue_poll_runs (i := .trunc) hhosts2 (hblk2 ▸ ran_busy _ _) (fun h => nomatch h)
  obtain ⟨t4, hreach4, hhosts4, hblk4⟩ := issue_poll_runs (i := .fmt) hhosts3 (hblk3 ▸ ran_busy _ _) (fun h => nomatch h)
  obtain ⟨u, hreachu, hhostsu, hblku⟩ := issue_poll_runs (i := .derive) (hosts_load hn hsd _) hb (fun _ => hk)
  obtain ⟨j, hj⟩ := hreach1.trans (hreach2.trans (hreach3.trans hreach4))
  obtain ⟨k, hu⟩ := hreachu
  refine ⟨j, k, t4, u, hj, hu, hhosts4.prog, hhostsu.prog, hblku ▸ rfl, hblku ▸ rfl, ?_⟩
  rw [hblk4, hblk3, hblk2, hblk1, hblku, State.load_blk, State.load_blk, ran_stages]

/-- Settles O49: CDIV hands the counter on in its register. -/
theorem totpEqualsCdivThenDerive : Obligations.TotpEqualsCdivThenDerive := by
  unfold Obligations.TotpEqualsCdivThenDerive
  intro s sc sd hsc hsd hn hb hk
  obtain ⟨t1, hreach1, hhosts1, hblk1⟩ := issue_poll_runs (i := .cdiv) (hosts_load hn hsc _) hb (fun h => nomatch h)
  have hk1 : t1.blk.keylen.toNat ≤ 256 := by rwa [hblk1, ran_keylen (by decide)]
  obtain ⟨t2, hreach2, hhosts2, hblk2⟩ := issue_poll_runs (i := .derive) hhosts1 (hblk1 ▸ ran_busy _ _) (fun _ => hk1)
  obtain ⟨u, hreachu, hhostsu, hblku⟩ := issue_poll_runs (i := .totp) (hosts_load hn hsd _) hb (fun _ => hk)
  obtain ⟨j, hj⟩ := hreach1.trans hreach2
  obtain ⟨k, hu⟩ := hreachu
  refine ⟨j, k, t2, u, hj, hu, hhosts2.prog, hhostsu.prog, hblku ▸ rfl, hblku ▸ rfl, ?_⟩
  rw [hblk2, hblk1, hblku, State.load_blk, State.load_blk, ran_cdiv_derive]

end Sys2Proof.Machine
end
